-- ==== Sys2Proof/Word.lean ====
section
/-! DEFINITION. The word types of the Packet Framer (spec/00_scope.md R11): every value is an unsigned bit vector. -/

namespace Sys2Proof

/-- A byte, 0 to 255 (R11). -/
abbrev Byte := BitVec 8

/-- A word16, 0 to 65 535 (R11): OUT, SUM and the class W operand. -/
abbrev Word16 := BitVec 16

/-- A command word as it stands on the command port, one 32-bit unit (R70, R71). -/
abbrev Command := BitVec 32

end Sys2Proof
end

