-- ==== Sys2Proof/Config.lean ====
section
/-! DEFINITION. What is fixed when the block is built (spec/00_scope.md R6, R7, R9, R10), and the free values: the answers of the
collaborators and the PEER, about which the spec gives no law (spec/48_host_controller.md R223). -/

namespace Sys2Proof

/-! ### Table R6, the normative constants -/

/-- Data packet start marker (R6). -/
def START : Byte := 0x01#8
/-- Data packet terminator (R6). -/
def EOL : Byte := 0x0D#8
/-- Escape marker and escape character (R6). -/
def ESC_CHAR : Byte := 0x23#8
/-- Low-7-bit values below this are escaped (R6). -/
def CTL_LIMIT : Byte := 0x20#8
/-- Low-7-bit value that is escaped (R6). -/
def DEL_CHAR : Byte := 0x7F#8
/-- XOR applied by the escape transform (R6). -/
def CTL_XOR : Byte := 0x40#8
/-- Printable-value offset (R6). -/
def PRINT_OFFSET : Nat := 0x20
/-- Checksum width mask, 6 bits (R6). -/
def CK_MASK : Nat := 0x3F
/-- Carry-fold shift (R6). -/
def CK_FOLD_SHIFT : Nat := 6
/-- Carry-fold mask (R6). -/
def CK_FOLD_MASK : Nat := 0x3
/-- The length field counts sequence, type and checksum besides the payload (R6). -/
def HDR_COUNT : Nat := 3
/-- Sequence-number modulus (R6). -/
def SEQ_MOD : Nat := 128
/-- Acknowledgment frame size in bytes (R6). -/
def ACK_FRAME_LEN : Nat := 6
/-- Host attempt cap (R6, host only). -/
def MAX_RETRY : Nat := 4
/-- Completion byte (R6, host only; R84). -/
def ETX : Byte := 0x03#8

/-! ### Build parameters -/

/-- The build constants of one block, read as registers 12 to 15 (R10, Table R22). -/
structure Config where
  /-- MAX_CHUNK, CFG_MAX_CHUNK. -/
  maxChunk : Byte
  /-- TYPE_DATA, an open parameter (R7). -/
  typeData : Byte
  /-- TYPE_ACK, an open parameter (R7). -/
  typeAck : Byte
  /-- TYPE_NACK, an open parameter (R7). -/
  typeNack : Byte
  deriving DecidableEq, Repr

/-- What the model requires of the build constants: 1 ≤ MAX_CHUNK ≤ 110 (R9) and TYPE_ACK ≠ TYPE_NACK (R7). -/
def Config.wf (c : Config) : Bool :=
  decide (1 ≤ c.maxChunk.toNat) && decide (c.maxChunk.toNat ≤ 110) && decide (c.typeAck ≠ c.typeNack)

/-- This hardware's MAX_CHUNK (R6) with the default type literals of R7 ('D', 'Y', 'N').
DESIGN CHOICE (logs 1 and 2): the literals are open parameters, and no statement rests on these values. unsafe -/
def Config.default : Config :=
  { maxChunk := 100#8, typeData := 0x44#8, typeAck := 0x59#8, typeNack := 0x4E#8 }

/-- The artificial delay of the host, a parameter no rule reads (R298, U6; log 22). -/
opaque Config.ackDelay : Nat

/-- The block's place in a host address map, a parameter no rule reads (R56, V10; log 22). -/
opaque Config.pfBase : Nat

/-! ### Free values: the collaborators and the PEER (R222, R223; log 8) -/

/-- What a transport write returns: success with any count, or an error (R223). -/
inductive WriteResult where
  | success (count : Nat)
  | error
  deriving DecidableEq, Repr, Inhabited

/-- FREE VALUE: what `open()` and the file hold at the n-th draw: an error, or a file of these bytes (R222, R239). -/
opaque Config.drawFile : Nat → Option (List Byte)

/-- FREE VALUE: the bytes a transport read brings at the n-th draw, cut to the 6 asked for (R223). -/
opaque Config.drawRead : Nat → List Byte

/-- FREE VALUE: what a transport write returns at the n-th draw (R223). -/
opaque Config.drawWrite : Nat → WriteResult

/-! ### Free values: what the host program notation does not say (R241; log 24) -/

/-- FREE VALUE: the file byte at this index, where no H.FILE line says it (R241; log 24). -/
opaque Config.fileByte : Nat → Byte

/-- FREE VALUE: the count that the n-th H.WRITE's success reports (R223, R241; log 24). -/
opaque Config.writeCount : Nat → Nat

end Sys2Proof
end

