-- ==== Sys2Proof/Syntax.lean ====
section
/-! DEFINITION. The fifteen commands of Table R75 (spec/30_encoding.md), one constructor per row of spec/opcode_table.json, their
operand classes (R72), and the causes of a command fault (spec/60_exceptions.md R261). -/

namespace Sys2Proof

/-- A decoded command. An operand is a class B byte or the class W word16 (R72, R73). -/
inductive Instr where
  /-- R200: SEQ <- 0. -/
  | seqrst
  /-- R201: SEQ <- (SEQ + 1) mod 128. -/
  | seqinc
  /-- R110: OUT <- should_escape(b). -/
  | esctst (b : Byte)
  /-- R111: OUT <- esc_expand(b). -/
  | escenc (b : Byte)
  /-- R112: OUT <- unescape(b). -/
  | escdec (b : Byte)
  /-- R123: OUT <- encode(v). -/
  | tochar (v : Byte)
  /-- R124: OUT <- decode(x). -/
  | unchar (x : Byte)
  /-- R134: OUT <- checksum(w). -/
  | cksum (w : Word16)
  /-- R140: CHUNK_LEN <- 0. -/
  | txclr
  /-- R141: append b to CHUNK. -/
  | txpush (b : Byte)
  /-- R142: PKT <- the data packet of CHUNK at SEQ. -/
  | build
  /-- R160: RX_LEN <- 0. -/
  | rxclr
  /-- R161: append b to RX. -/
  | rxpush (b : Byte)
  /-- R163: ACKRES <- decode_ack(RX, SEQ). -/
  | ackchk
  /-- R182: disassemble the data packet in RX. -/
  | datchk
  deriving DecidableEq, Repr

/-- How IMM is used (R72): no operand, a byte, a word16. -/
inductive OpClass where
  | n
  | b
  | w
  deriving DecidableEq, Repr

/-- The causes of a command fault (Table R261). -/
inductive FaultCause where
  /-- Code 1: OP is not in Table R75. -/
  | illegalOpcode
  /-- Code 2: RSV or a must-be-zero bit of IMM is not zero. -/
  | reservedField
  /-- Code 3: TXPUSH onto a full CHUNK. -/
  | chunkOverflow
  /-- Code 4: RXPUSH onto a full RX. -/
  | rxOverflow
  deriving DecidableEq, Repr

/-- The operand class of each command (Table R75). -/
def Instr.opClass : Instr → OpClass
  | .seqrst | .seqinc | .txclr | .build | .rxclr | .ackchk | .datchk => .n
  | .esctst _ | .escenc _ | .escdec _ | .tochar _ | .unchar _ | .txpush _ | .rxpush _ => .b
  | .cksum _ => .w

end Sys2Proof
end

