-- ==== Sys2Proof/WellFormed.lean ====
section
/-! DEFINITION. The fields of a command word (spec/30_encoding.md Table R71) and the checks that a word of each operand class must
pass (R72). An operand of an Instr has exactly the width its class allows, so every Instr is well formed; that its encoded word
passes these checks is proved per constructor (Sys2Proof/Laws/PerInstr.lean). -/

namespace Sys2Proof

/-- The three fields of a command word (Table R71). -/
structure RawCommand where
  /-- Bits 31:24. -/
  op : Byte
  /-- Bits 23:16, reserved. -/
  rsv : Byte
  /-- Bits 15:0. -/
  imm : Word16
  deriving DecidableEq, Repr

/-- RSV must be 0x00 (Table R71). -/
def RawCommand.rsvZero (c : RawCommand) : Bool := c.rsv == 0#8

/-- The bits of IMM that must be zero are, for the operand class (R72). -/
def RawCommand.immFits (c : RawCommand) : OpClass → Bool
  | .n => c.imm == 0#16
  | .b => c.imm.extractLsb' 8 8 == 0#8
  | .w => true

/-- A command word of this class breaks no reserved-bit rule (R72). -/
def RawCommand.wellFormed (c : RawCommand) (cls : OpClass) : Bool := c.rsvZero && c.immFits cls

/-- An operand written as a number fits its class: above 0xFF in class B or 0xFFFF in class W it is an assembly error, and a
class N command takes none (R78). -/
def operandFits : OpClass → Option Nat → Bool
  | .n, none => true
  | .b, some v => decide (v ≤ 0xFF)
  | .w, some v => decide (v ≤ 0xFFFF)
  | _, _ => false

end Sys2Proof
end

