-- ==== Sys2Proof/Decode.lean ====
section
/-! DEFINITION. Decoding a command word (spec/30_encoding.md R74, Table R75): total, and a word that is no command is rejected with
the cause of its command fault. After it the encoder, from the same table (R78), and the host's decodeTableWord. -/

namespace Sys2Proof

/-- What a command word decodes to: a command, or the cause of the fault it raises (R74). -/
inductive Decoded where
  | instr (i : Instr)
  | fault (c : FaultCause)
  deriving DecidableEq, Repr

/-- The fields of a word (Table R71). -/
def rawOf (w : Command) : RawCommand :=
  { op := w.extractLsb' 24 8, rsv := w.extractLsb' 16 8, imm := w.extractLsb' 0 16 }

/-- Operand b of class B, IMM[7:0] (R73). -/
def immByte (imm : Word16) : Byte := imm.extractLsb' 0 8

/-- Table R75: each assigned OP with its class and the command its IMM makes; every other OP is unassigned (R76). -/
def opcodeTable : Byte → Option (OpClass × (Word16 → Instr))
  | 0x01#8 => some (.n, fun _ => .seqrst)
  | 0x02#8 => some (.n, fun _ => .seqinc)
  | 0x10#8 => some (.b, fun imm => .esctst (immByte imm))
  | 0x11#8 => some (.b, fun imm => .escenc (immByte imm))
  | 0x12#8 => some (.b, fun imm => .escdec (immByte imm))
  | 0x20#8 => some (.b, fun imm => .tochar (immByte imm))
  | 0x21#8 => some (.b, fun imm => .unchar (immByte imm))
  | 0x30#8 => some (.w, fun imm => .cksum imm)
  | 0x40#8 => some (.n, fun _ => .txclr)
  | 0x41#8 => some (.b, fun imm => .txpush (immByte imm))
  | 0x42#8 => some (.n, fun _ => .build)
  | 0x50#8 => some (.n, fun _ => .rxclr)
  | 0x51#8 => some (.b, fun imm => .rxpush (immByte imm))
  | 0x52#8 => some (.n, fun _ => .ackchk)
  | 0x53#8 => some (.n, fun _ => .datchk)
  | _ => none

/-- decode_cmd (R74): the first check that fails decides the fault, in the order opcode, RSV, class bits. -/
def decodeCmd (w : Command) : Decoded :=
  let c := rawOf w
  match opcodeTable c.op with
  | none => .fault .illegalOpcode
  | some (cls, make) =>
    if c.rsvZero = false then .fault .reservedField
    else if c.immFits cls = false then .fault .reservedField
    else .instr (make c.imm)

/-- The OP of each command (Table R75). -/
def opcodeOf : Instr → Byte
  | .seqrst => 0x01#8
  | .seqinc => 0x02#8
  | .esctst _ => 0x10#8
  | .escenc _ => 0x11#8
  | .escdec _ => 0x12#8
  | .tochar _ => 0x20#8
  | .unchar _ => 0x21#8
  | .cksum _ => 0x30#8
  | .txclr => 0x40#8
  | .txpush _ => 0x41#8
  | .build => 0x42#8
  | .rxclr => 0x50#8
  | .rxpush _ => 0x51#8
  | .ackchk => 0x52#8
  | .datchk => 0x53#8

/-- The IMM of each command: its operand zero-extended, or 0 (R72). -/
def immOf : Instr → Word16
  | .esctst b | .escenc b | .escdec b | .tochar b | .unchar b | .txpush b | .rxpush b => b.setWidth 16
  | .cksum w => w
  | .seqrst | .seqinc | .txclr | .build | .rxclr | .ackchk | .datchk => 0#16

/-- The word of a command: OP << 24 | operand (R78), with RSV zero. -/
def encode (i : Instr) : Command :=
  (opcodeOf i).setWidth 32 <<< 24 ||| (immOf i).setWidth 32

/-- The instruction this decoder reads from the opcode table's bits: a command is exactly one 32-bit word, presented as one unit
with no byte order (R52, R77), so the table's numbering is the word's own. Bits at nbits and above are 0
(log 19). -/
def decodeTableWord (nbits w : Nat) : Option Instr :=
  match decodeCmd (BitVec.ofNat 32 (w % 2 ^ nbits)) with
  | .instr i => some i
  | .fault _ => none

end Sys2Proof
end

