-- ==== Sys2Proof/Machine/State.lean ====
section
/-! DEFINITION. The machine's state as plain data: the BLOCK's registers and buffers (spec/10_state.md R22, R30), the HOST's session
(spec/48_host_controller.md R220, R221), the actions waiting at the ports, and the collaborators' answers (R222, R223); the reset
state (spec/70_reset_and_hazards.md R290). -/

namespace Sys2Proof.Machine

/-- The four byte buffers (Table R30). -/
inductive BufName where
  | chunk
  | pkt
  | rx
  | dec
  deriving DecidableEq, Repr

/-- The BLOCK's only addressable stores (R51). A buffer is the sequence of its valued entries, index 0 first: an entry at or above
the length holds no value (R30, R31), so the length register IS the sequence's length (log 3). -/
structure Memory where
  /-- The raw chunk the next BUILD frames. -/
  chunk : List Byte
  /-- The last data packet built, in wire order. -/
  pkt : List Byte
  /-- Received bytes, in wire order. -/
  rx : List Byte
  /-- The unescaped payload of the last data packet that checked OK. -/
  dec : List Byte
  deriving DecidableEq, Repr

/-- The Transfer Controller's states (R220). -/
inductive CtlState where
  | idle
  | chunking
  | send
  | receive
  | advance
  | retry
  | complete
  | done
  | abort
  deriving DecidableEq, Repr

/-- hpc (R220): one name for each position in a controller state's list of actions, the action the host takes next (log 7). -/
inductive Hpc where
  /-- R224.1: issue SEQRST. -/
  | idleSeqrst
  /-- R224.2: open the file. -/
  | idleOpen
  /-- R224.3: set remaining_bytes, bytes_sent and retry_count. -/
  | idleInit
  /-- R224.4: go to Complete or Chunking. -/
  | idleGoto
  /-- R225.1: set chunk_len. -/
  | chunkSize
  /-- R225.2: read chunk_len bytes from the file. -/
  | chunkRead
  /-- R225.3: issue TXCLR. -/
  | chunkClear
  /-- R225.3 and R225.4: issue TXPUSH for the next byte read, or BUILD when none is left. -/
  | chunkFill
  /-- R225.5: set retry_count to 0. -/
  | chunkRetryZero
  /-- R225.6: go to Send. -/
  | chunkGoto
  /-- R226: read PKT through the read port and pass it to one transport write. -/
  | sendWrite
  /-- R227.1: the artificial delay, no effect (log 22). -/
  | recvDelay
  /-- R227.2: read up to 6 bytes from the transport. -/
  | recvRead
  /-- R227.3: issue RXCLR. -/
  | recvClear
  /-- R227.3: issue RXPUSH for the next byte received, or ACKCHK when none is left. -/
  | recvFill
  /-- R227.4 and R228: read ACKRES and go to Advance or Retry. -/
  | recvDispatch
  /-- R230.1: account for the acknowledged chunk. -/
  | advAccount
  /-- R230.2: issue SEQINC. -/
  | advSeqinc
  /-- R230.3: set retry_count to 0. -/
  | advRetryZero
  /-- R230.4: go to Complete or Chunking. -/
  | advGoto
  /-- R231.1: add 1 to retry_count. -/
  | retryCount
  /-- R231.2: log an anomaly if the result was UNEXPECTED_TYPE. -/
  | retryLog
  /-- R231.3 and R231.4: abort or resend. -/
  | retryDecide
  /-- R232: write ETX. -/
  | completeWrite
  /-- R233: terminal. -/
  | done
  /-- R233: terminal. -/
  | abort
  deriving DecidableEq, Repr

/-- How a transfer ended (R234). -/
inductive TransferOutcome where
  | fullySent
  /-- Retry exhaustion, with SEQ and bytes_sent. -/
  | abortedRetry (seq : BitVec 7) (bytesSent : Nat)
  /-- A write error or a file-open error, with bytes_sent. -/
  | abortedTransport (bytesSent : Nat)
  /-- The source's resource fault, which no run reaches (R234, V13). -/
  | resourceFailure
  deriving DecidableEq, Repr

/-- The host's session (R221) and position (R220). -/
structure Controller where
  hpc : Hpc
  /-- remaining_bytes. -/
  remaining : Nat
  /-- retry_count. -/
  retryCount : Nat
  /-- bytes_sent. -/
  bytesSent : Nat
  /-- chunk_len. -/
  chunkLen : Nat
  outcome : Option TransferOutcome
  /-- The open file's unread bytes; none when no file is open (R222, log 9). -/
  file : Option (List Byte)
  /-- Bytes read from the file and not yet pushed (R225). -/
  fileBytes : List Byte
  /-- Bytes read from the transport and not yet pushed (R227). -/
  recvBytes : List Byte
  /-- ACKRES as the host read it at the last dispatch (R228, R229; log 17). -/
  ackSeen : BitVec 3
  /-- How many protocol-anomaly log entries were recorded (R231; log 15). -/
  anomalies : Nat
  deriving DecidableEq, Repr

/-- The collaborators and the PEER (R222, R223): their next answers, and the transport's record. -/
structure Env where
  /-- Answers of `open()`: an error, or the file's bytes. -/
  opens : List (Option (List Byte))
  /-- Answers of the transport's reads. -/
  reads : List (List Byte)
  /-- Answers of the transport's writes. -/
  writes : List WriteResult
  /-- How many answers were taken from the free values, once the lists were empty (log 8). -/
  draws : Nat
  /-- The byte strings passed to transport writes, oldest first (log 16). -/
  wire : List (List Byte)
  deriving DecidableEq, Repr

/-- What the free host does at the BLOCK's ports (R55, R70, R239, R290; log 5). -/
inductive PortAction where
  /-- Present a command word, legal or illegal. -/
  | command (w : Command)
  /-- Assert the RESET input. -/
  | reset
  /-- read_reg(n). -/
  | readReg (n : Nat)
  /-- read_buf(B, i). -/
  | readBuf (b : BufName) (i : Nat)
  /-- Begin a new transfer: a fresh session (R221). -/
  | startTransfer
  deriving DecidableEq, Repr

/-- The answer of the last read-port read (R55). -/
inductive ReadData where
  /-- No read yet. -/
  | nothing
  /-- The value read, zero-extended to 16 bits. -/
  | value (v : Word16)
  /-- Refused: no value. -/
  | refused
  deriving DecidableEq, Repr

/-- The whole machine. -/
structure State where
  /-- Register 0, STATUS (R23). -/
  status : BitVec 8
  /-- Register 1, SEQ (R27). -/
  seq : BitVec 7
  /-- Register 2, OUT (R52). -/
  out : BitVec 16
  /-- Register 3, OUTN. -/
  outn : BitVec 2
  /-- Register 4, SUM (R28). -/
  sum : BitVec 16
  /-- Register 9, ACKRES (R24). -/
  ackres : BitVec 3
  /-- Register 10, DATRES (R25). -/
  datres : BitVec 3
  /-- Register 11, RSEQ (R186). -/
  rseq : BitVec 8
  /-- Registers 12 to 15, read-only constants (R10, R29). -/
  cfg : Config
  /-- The buffers, whose lengths are registers 5 to 8 (R30). -/
  mem : Memory
  /-- The HOST's session (R220, R221). -/
  host : Controller
  /-- The collaborators and the PEER (R222, R223). -/
  env : Env
  /-- The free host's port actions still to come (log 5). -/
  program : List PortAction
  /-- The answer of the last read-port read (R55, log 6). -/
  readData : ReadData
  deriving DecidableEq, Repr

/-- Why the machine stops. Only a host action raises one, never a command: a command fault is recorded in STATUS and the BLOCK
goes on (R262). -/
inductive Fault where
  /-- The file returned fewer than chunk_len bytes, for which the host has no move (R239, U10: stuck). Raised by the Chunking
  state's file read. safe -/
  | shortFileRead
  /-- A file read or size() with no open file, where no rule gives a move. Raised by Idle's set-up and Chunking's read. safe -/
  | fileNotOpen
  /-- ACKRES at the dispatch is no ACKCHK result, where R228 names no state to go to. Raised by Receive's dispatch. safe -/
  | ackresNotResult
  deriving DecidableEq, Repr

/-- Why the model gives no meaning. -/
inductive Refusal where
  /-- An instruction whose meaning is not written yet; raised by exec's arm. safe -/
  | notModelled (mnemonic : String)
  /-- A free host starts a transfer while one runs; it cannot be cancelled (R238). Raised by the port action startTransfer. safe -/
  | transferInProgress
  deriving DecidableEq, Repr

/-- Buffers with no valued entry (R290). -/
def Memory.empty : Memory := { chunk := [], pkt := [], rx := [], dec := [] }

/-- A fresh session, at the start of Idle (R221, R224). DESIGN CHOICE (log 11): the spec gives its variables no value before the
transfer sets them. unsafe -/
def Controller.init : Controller :=
  { hpc := .idleSeqrst, remaining := 0, retryCount := 0, bytesSent := 0, chunkLen := 0, outcome := none, file := none,
    fileBytes := [], recvBytes := [], ackSeen := 0#3, anomalies := 0 }

/-- No answer placed, none drawn, nothing written (logs 8 and 16). -/
def Env.init : Env := { opens := [], reads := [], writes := [], draws := 0, wire := [] }

/-- The reset state of a block with these build constants (R290), beside a fresh host. -/
def State.resetWith (c : Config) : State :=
  { status := 0x00#8, seq := 0#7, out := 0x0000#16, outn := 0#2, sum := 0x0000#16, ackres := 0#3, datres := 0#3,
    rseq := 0x00#8, cfg := c, mem := Memory.empty, host := Controller.init, env := Env.init, program := [],
    readData := .nothing }

/-- The machine right after reset (R290). -/
def State.reset : State := State.resetWith Config.default

end Sys2Proof.Machine
end

