-- ==== Sys2Proof/Machine/Flags.lean ====
section
/-! DEFINITION. The flag-like state (spec/10_state.md R33): STATUS's fields (R23), the fault codes (R261) and the result codes of
ACKCHK and DATCHK (R24, R25). The BLOCK has no condition codes. -/

namespace Sys2Proof.Machine

/-- The 3-bit code of a cause (Table R261). -/
def causeCode : FaultCause → BitVec 3
  | .illegalOpcode => 1#3
  | .reservedField => 2#3
  | .chunkOverflow => 3#3
  | .rxOverflow => 4#3

/-- STATUS as a fault records it: zext_8(cause << 1) | 1 (R262). -/
def statusWord (c : FaultCause) : BitVec 8 := (causeCode c).setWidth 8 <<< 1 ||| 1#8

/-- STATUS.FAULT, bit 0 (R23). -/
def State.faultFlag (s : State) : Bool := s.status.getLsbD 0

/-- STATUS.CAUSE, bits 3:1 (R23). -/
def State.cause (s : State) : BitVec 3 := s.status.extractLsb' 1 3

/-- The results of decode_ack (R24). -/
inductive AckResult where
  | acknowledged
  | negativeAcknowledged
  | checksumInvalid
  | sequenceInvalid
  | unexpectedType
  deriving DecidableEq, Repr

/-- ACKRES's code of a result; 0 is NONE, and 6 and 7 are never written (R24). -/
def ackCode : AckResult → BitVec 3
  | .acknowledged => 1#3
  | .negativeAcknowledged => 2#3
  | .checksumInvalid => 3#3
  | .sequenceInvalid => 4#3
  | .unexpectedType => 5#3

/-- An ACKRES value is retryable exactly when it is 2, 3, 4 or 5 (R26). -/
def retryable (v : BitVec 3) : Bool := v == 2#3 || v == 3#3 || v == 4#3 || v == 5#3

/-- What decode_data answers: a code, with the sum if it was computed, and on OK the decoded sequence field and payload (R181). -/
inductive DataResult where
  | badLength
  | badStart
  | badTerminator
  | checksumInvalid (s : Nat)
  | unexpectedType (s : Nat)
  | badEscape (s : Nat)
  | ok (s : Nat) (seq : Byte) (out : List Byte)
  deriving DecidableEq, Repr

/-- DATRES's code of a result; 0 is NONE (R25). -/
def dataCode : DataResult → BitVec 3
  | .ok _ _ _ => 1#3
  | .badLength => 2#3
  | .badStart => 3#3
  | .badTerminator => 4#3
  | .checksumInvalid _ => 5#3
  | .unexpectedType _ => 6#3
  | .badEscape _ => 7#3

/-- The sum a data check computed, if it got as far as the checksum (R181, R182). -/
def dataSum : DataResult → Option Nat
  | .badLength | .badStart | .badTerminator => none
  | .checksumInvalid s | .unexpectedType s | .badEscape s | .ok s _ _ => some s

end Sys2Proof.Machine
end

