-- ==== Sys2Proof/Machine/Ops.lean ====
section
/-! DEFINITION. The named operations over the buffers and registers: buffer writes (spec/20_memory.md R63), the read port (R55),
recording a command fault (spec/60_exceptions.md R262), and the RESET input (spec/70_reset_and_hazards.md R290). -/

namespace Sys2Proof.Machine

/-! ### Buffers -/

/-- A buffer's valued entries, index 0 first (R30). -/
def Memory.buf (m : Memory) : BufName → List Byte
  | .chunk => m.chunk
  | .pkt => m.pkt
  | .rx => m.rx
  | .dec => m.dec

/-- The buffers with one of them given these entries. -/
def Memory.setBuf (m : Memory) (b : BufName) (bs : List Byte) : Memory :=
  match b with
  | .chunk => { m with chunk := bs }
  | .pkt => { m with pkt := bs }
  | .rx => { m with rx := bs }
  | .dec => { m with dec := bs }

/-- One entry: its byte below the length, no value at or above it (R30, R31; log 4). -/
def Memory.read (m : Memory) (b : BufName) (i : Nat) : Option Byte := (m.buf b)[i]?

/-- Empty a buffer: its length register becomes 0 and its entries valueless (R63). -/
def Memory.clear (m : Memory) (b : BufName) : Memory := m.setBuf b []

/-- Append: write the entry at the index equal to the length, then add 1 to the length (R63). -/
def Memory.push (m : Memory) (b : BufName) (v : Byte) : Memory := m.setBuf b (m.buf b ++ [v])

/-- Replace all of a buffer (R63). -/
def Memory.replace (m : Memory) (b : BufName) (bs : List Byte) : Memory := m.setBuf b bs

/-- The buffers' capacities, derived from MAX_CHUNK (R8). -/
def capacity (c : Config) : BufName → Nat
  | .chunk => c.maxChunk.toNat
  | .pkt => 2 * c.maxChunk.toNat + 6
  | .rx => 2 * c.maxChunk.toNat + 6
  | .dec => 2 * c.maxChunk.toNat

/-- The form every operation keeps: no buffer is longer than its capacity (R8, R30). That its valued entries are exactly those
below its length holds by the type. -/
def Memory.wf (c : Config) (m : Memory) : Bool :=
  decide (m.chunk.length ≤ capacity c .chunk) && decide (m.pkt.length ≤ capacity c .pkt)
    && decide (m.rx.length ≤ capacity c .rx) && decide (m.dec.length ≤ capacity c .dec)

/-! ### Length registers (Table R22, registers 5 to 8) -/

/-- CHUNK_LEN. -/
def State.chunkLen (s : State) : BitVec 7 := BitVec.ofNat 7 s.mem.chunk.length
/-- PKT_LEN. -/
def State.pktLen (s : State) : BitVec 8 := BitVec.ofNat 8 s.mem.pkt.length
/-- RX_LEN. -/
def State.rxLen (s : State) : BitVec 8 := BitVec.ofNat 8 s.mem.rx.length
/-- DEC_LEN. -/
def State.decLen (s : State) : BitVec 8 := BitVec.ofNat 8 s.mem.dec.length

/-! ### One update per field -/

/-- STATUS <- v. -/
def State.setStatus (s : State) (v : BitVec 8) : State := { s with status := v }
/-- SEQ <- v. -/
def State.setSeq (s : State) (v : BitVec 7) : State := { s with seq := v }
/-- OUT <- v and OUTN <- n: the two are always written together (Table R22). -/
def State.setOut (s : State) (v : Word16) (n : BitVec 2) : State := { s with out := v, outn := n }
/-- SUM <- the exact sum (R28), which is below 2^16 in every state a run reaches (R131; log 18). -/
def State.setSum (s : State) (v : Nat) : State := { s with sum := BitVec.ofNat 16 v }
/-- ACKRES <- v. -/
def State.setAckres (s : State) (v : BitVec 3) : State := { s with ackres := v }
/-- DATRES <- v. -/
def State.setDatres (s : State) (v : BitVec 3) : State := { s with datres := v }
/-- RSEQ <- v. -/
def State.setRseq (s : State) (v : Byte) : State := { s with rseq := v }
/-- The buffers, and with them their length registers. -/
def State.setMem (s : State) (m : Memory) : State := { s with mem := m }
/-- The host's session. -/
def State.setHost (s : State) (h : Controller) : State := { s with host := h }
/-- The collaborators. -/
def State.setEnv (s : State) (e : Env) : State := { s with env := e }
/-- The free host's actions still to come. -/
def State.setProgram (s : State) (p : List PortAction) : State := { s with program := p }
/-- The answer of the read port. -/
def State.setReadData (s : State) (r : ReadData) : State := { s with readData := r }

/-! ### Taking a command fault, and the RESET that alone clears it -/

/-- raise Fault(cause) (R262): the first cause since reset is recorded in STATUS, a later one is not, and nothing else changes. The
BLOCK saves no pc and transfers no control (R265), and goes on with the next command. -/
def State.recordFault (s : State) (c : FaultCause) : State :=
  if s.faultFlag = false then s.setStatus (statusWord c) else s

/-- The RESET input (R290, R291): the BLOCK's registers and buffers take their reset values, and the build constants stay. The
host's session and the collaborators are not the BLOCK's (R4; log 20). -/
def State.blockReset (s : State) : State :=
  { State.resetWith s.cfg with host := s.host, env := s.env, program := s.program, readData := s.readData }

/-! ### The read port (R55) -/

/-- The registers of Table R22. -/
inductive Reg where
  | status
  | seq
  | out
  | outn
  | sum
  | chunkLen
  | pktLen
  | rxLen
  | decLen
  | ackres
  | datres
  | rseq
  | cfgMaxChunk
  | cfgTypeData
  | cfgTypeAck
  | cfgTypeNack
  deriving DecidableEq, Repr

/-- The register a read-port number names; 16 and above name none (R29). -/
def regOfNumber : Nat → Option Reg
  | 0 => some .status
  | 1 => some .seq
  | 2 => some .out
  | 3 => some .outn
  | 4 => some .sum
  | 5 => some .chunkLen
  | 6 => some .pktLen
  | 7 => some .rxLen
  | 8 => some .decLen
  | 9 => some .ackres
  | 10 => some .datres
  | 11 => some .rseq
  | 12 => some .cfgMaxChunk
  | 13 => some .cfgTypeData
  | 14 => some .cfgTypeAck
  | 15 => some .cfgTypeNack
  | _ => none

/-- A register's value, zero-extended to 16 bits (R55). -/
def State.regValue (s : State) : Reg → Word16
  | .status => s.status.setWidth 16
  | .seq => s.seq.setWidth 16
  | .out => s.out
  | .outn => s.outn.setWidth 16
  | .sum => s.sum
  | .chunkLen => s.chunkLen.setWidth 16
  | .pktLen => s.pktLen.setWidth 16
  | .rxLen => s.rxLen.setWidth 16
  | .decLen => s.decLen.setWidth 16
  | .ackres => s.ackres.setWidth 16
  | .datres => s.datres.setWidth 16
  | .rseq => s.rseq.setWidth 16
  | .cfgMaxChunk => s.cfg.maxChunk.setWidth 16
  | .cfgTypeData => s.cfg.typeData.setWidth 16
  | .cfgTypeAck => s.cfg.typeAck.setWidth 16
  | .cfgTypeNack => s.cfg.typeNack.setWidth 16

/-- read_reg(n): the register's value for 0 to 15, refused otherwise (R55). -/
def State.readReg (s : State) (n : Nat) : Option Word16 := (regOfNumber n).map s.regValue

/-- read_buf(B, i): the entry below the length, refused otherwise (R55). -/
def State.readBuf (s : State) (b : BufName) (i : Nat) : Option Byte := s.mem.read b i

/-- What the host gets of a read: the value zero-extended to 16 bits, or a refusal and no value (R55). -/
def readAnswer (v : Option Word16) : ReadData :=
  match v with
  | some x => .value x
  | none => .refused

end Sys2Proof.Machine
end

