-- ==== Sys2Proof/Machine/Operands.lean ====
section
/-! DEFINITION. The operand and result forms the commands share: sequences and their sums (spec/00_scope.md R12), the scalar result
forms of OUT (spec/20_memory.md R52), and SEQ as a byte (zext_8). A command's own operand is the Instr's argument, taken from IMM by
the decoder (spec/30_encoding.md R73). -/

namespace Sys2Proof.Machine

/-- s[i..j), the elements i up to but not including j (R12). -/
def slice (s : List Byte) (i j : Nat) : List Byte := (s.drop i).take (j - i)

/-- sum(s), the exact integer sum of the elements (R12). -/
def byteSum : List Byte → Nat
  | [] => 0
  | b :: rest => b.toNat + byteSum rest

/-- zext_8(SEQ) (R142, R163). -/
def State.seqByte (s : State) : Byte := s.seq.setWidth 8

/-- A one-byte result: OUT <- zext_16(v); OUTN <- 1. -/
def State.outByte (s : State) (v : Byte) : State := s.setOut (v.setWidth 16) 1#2

/-- A two-byte result: the first byte emitted in OUT[7:0], the second in OUT[15:8]; OUTN <- 2 (R52, R111). -/
def State.outPair (s : State) (first second : Byte) : State :=
  s.setOut (second.setWidth 16 <<< 8 ||| first.setWidth 16) 2#2

/-- SUM <- v by a command that computed a sum; one that did not leaves SUM (R28, R163, R182). -/
def State.noteSum (s : State) : Option Nat → State
  | some v => s.setSum v
  | none => s

end Sys2Proof.Machine
end

