-- ==== Sys2Proof/Machine/Codec.lean ====
section
/-! DEFINITION. The printable-value codec: encode and decode, which BUILD, ACKCHK and DATCHK also use, and TOCHAR, UNCHAR
(spec/41_codec.md). -/

namespace Sys2Proof.Machine

/-- encode (R120): (v + 0x20) & 0xFF, total (R122, C1). -/
def pvEncode (v : Nat) : Byte := BitVec.ofNat 8 ((v + PRINT_OFFSET) % 256)

/-- decode (R121): (x − 0x20) & 0xFF, that is (x + 0xE0) mod 256; it wraps and does not saturate. -/
def pvDecode (x : Byte) : Byte := BitVec.ofNat 8 ((x.toNat + 0xE0) % 256)

/-- TOCHAR (R123): no range fault (R122). -/
def execTochar (v : Byte) (s : State) : Host.Outcome State Fault Refusal := .next (s.outByte (pvEncode v.toNat))

/-- UNCHAR (R124). -/
def execUnchar (x : Byte) (s : State) : Host.Outcome State Fault Refusal := .next (s.outByte (pvDecode x))

end Sys2Proof.Machine
end

