-- ==== Sys2Proof/Machine/Checksum.lean ====
section
/-! DEFINITION. The checksum unit: the 6-bit additive checksum with one carry fold, and CKSUM (spec/42_checksum.md). -/

namespace Sys2Proof.Machine

/-- checksum (R130): encode((s + ((s >> 6) & 0x3)) & 0x3F). -/
def checksum (s : Nat) : Byte := pvEncode ((s + ((s >>> CK_FOLD_SHIFT) &&& CK_FOLD_MASK)) &&& CK_MASK)

/-- CKSUM (R134): SUM is not written. -/
def execCksum (w : Word16) (s : State) : Host.Outcome State Fault Refusal := .next (s.outByte (checksum w.toNat))

end Sys2Proof.Machine
end

