-- ==== Sys2Proof/Machine/AckDecoder.lean ====
section
/-! DEFINITION. The receive buffer commands and the acknowledgment decoder: RXCLR, RXPUSH, ACKCHK (spec/44_ack_decoder.md). -/

namespace Sys2Proof.Machine

/-- RXCLR (R160): RX_LEN <- 0. -/
def execRxclr (s : State) : Host.Outcome State Fault Refusal := .next (s.setMem (s.mem.clear .rx))

/-- RXPUSH (R161): append one byte, or record RX_OVERFLOW when RX_LEN = RX_MAX. -/
def execRxpush (b : Byte) (s : State) : Host.Outcome State Fault Refusal :=
  if s.mem.rx.length = capacity s.cfg .rx then .next (s.recordFault .rxOverflow)
  else .next (s.setMem (s.mem.push .rx b))

/-- The sum an ack frame's checksum is over, F[1] + F[2] + F[3] (R132); none unless the frame has exactly 6 bytes (R163, R167). -/
def ackSum : List Byte → Option Nat
  | [_, f1, f2, f3, _, _] => some (f1.toNat + f2.toNat + f3.toNat)
  | _ => none

/-- decode_ack (R162): length, checksum, sequence, type, the first failing check deciding (R164). Start, length and eol are not
checked (R166), and the sequence comparison is on 8-bit values (R168). -/
def decodeAck (c : Config) (f : List Byte) (expected : Byte) : AckResult :=
  match f with
  | [_, f1, f2, f3, f4, _] =>
    if f4 ≠ checksum (f1.toNat + f2.toNat + f3.toNat) then .checksumInvalid
    else if pvDecode f2 ≠ expected then .sequenceInvalid
    else if f3 = c.typeAck then .acknowledged
    else if f3 = c.typeNack then .negativeAcknowledged
    else .unexpectedType
  | _ => .checksumInvalid

/-- ACKCHK (R163): ACKRES, and SUM when RX_LEN = 6. -/
def execAckchk (s : State) : Host.Outcome State Fault Refusal :=
  .next ((s.setAckres (ackCode (decodeAck s.cfg s.mem.rx s.seqByte))).noteSum (ackSum s.mem.rx))

end Sys2Proof.Machine
end

