-- ==== Sys2Proof/Machine/Escaper.lean ====
section
/-! DEFINITION. The byte escaper: its functions, which BUILD and DATCHK also use, and ESCTST, ESCENC, ESCDEC
(spec/40_escaper.md). -/

namespace Sys2Proof.Machine

/-- The low 7 bits, b & 0x7F (Glossary). -/
def low7 (b : Byte) : Byte := b &&& 0x7F#8

/-- should_escape (R100). -/
def shouldEscape (b : Byte) : Bool :=
  decide (low7 b < CTL_LIMIT) || low7 b == DEL_CHAR || low7 b == ESC_CHAR

/-- esc_expand (R102): the bytes emitted for one source byte. A byte whose low 7 bits are the escape character's is sent literally
after the marker, 0xA3 included (R101, D12). -/
def escExpand (b : Byte) : List Byte :=
  if shouldEscape b = false then [b]
  else if low7 b = ESC_CHAR then [ESC_CHAR, b]
  else [ESC_CHAR, b ^^^ CTL_XOR]

/-- escaped(c) (R102): the expansions in order. -/
def escaped : List Byte → List Byte
  | [] => []
  | b :: rest => escExpand b ++ escaped rest

/-- unescape (R103): the original of the byte that followed a marker. -/
def unescape (e : Byte) : Byte := if low7 e = ESC_CHAR then e else e ^^^ CTL_XOR

/-- ESCTST (R110). -/
def execEsctst (b : Byte) (s : State) : Host.Outcome State Fault Refusal :=
  .next (s.outByte (if shouldEscape b then 1#8 else 0#8))

/-- ESCENC (R111): one byte, or the marker and the byte after it. -/
def execEscenc (b : Byte) (s : State) : Host.Outcome State Fault Refusal :=
  match escExpand b with
  | first :: second :: _ => .next (s.outPair first second)
  | [v] => .next (s.outByte v)
  | [] => .next s

/-- ESCDEC (R112): every b gives a value. -/
def execEscdec (b : Byte) (s : State) : Host.Outcome State Fault Refusal := .next (s.outByte (unescape b))

end Sys2Proof.Machine
end

