-- ==== Sys2Proof/Machine/PacketEncoder.lean ====
section
/-! DEFINITION. The packet encoder: TXCLR, TXPUSH, BUILD (spec/43_packet_encoder.md), and the data packet's layout
(spec/30_encoding.md R80). -/

namespace Sys2Proof.Machine

/-- TXCLR (R140): CHUNK_LEN <- 0. -/
def execTxclr (s : State) : Host.Outcome State Fault Refusal := .next (s.setMem (s.mem.clear .chunk))

/-- TXPUSH (R141): append one byte, or record CHUNK_OVERFLOW when CHUNK_LEN = MAX_CHUNK. -/
def execTxpush (b : Byte) (s : State) : Host.Outcome State Fault Refusal :=
  if s.mem.chunk.length = capacity s.cfg .chunk then .next (s.recordFault .chunkOverflow)
  else .next (s.setMem (s.mem.push .chunk b))

/-- The sum a data packet's checksum is over (R132): the length, sequence and type bytes and every escaped payload byte. -/
def packetSum (fLen fSeq fType : Byte) (payload : List Byte) : Nat :=
  fLen.toNat + fSeq.toNat + fType.toNat + byteSum payload

/-- The data packet of these escaped payload bytes (Table R80, R142). -/
def dataPacket (seq fType : Byte) (payload : List Byte) : List Byte :=
  let fLen := pvEncode (payload.length + HDR_COUNT)
  let fSeq := pvEncode seq.toNat
  [START, fLen, fSeq, fType] ++ payload ++ [checksum (packetSum fLen fSeq fType payload), EOL]

/-- The raw sum behind that packet's checksum (R142). -/
def dataPacketSum (seq fType : Byte) (payload : List Byte) : Nat :=
  packetSum (pvEncode (payload.length + HDR_COUNT)) (pvEncode seq.toNat) fType payload

/-- BUILD (R142): PKT, PKT_LEN and SUM from CHUNK, SEQ and TYPE_DATA; CHUNK and SEQ stay. -/
def execBuild (s : State) : Host.Outcome State Fault Refusal :=
  let p := escaped s.mem.chunk
  .next ((s.setMem (s.mem.replace .pkt (dataPacket s.seqByte s.cfg.typeData p))).setSum
    (dataPacketSum s.seqByte s.cfg.typeData p))

end Sys2Proof.Machine
end

