-- ==== Sys2Proof/Machine/DataDecoder.lean ====
section
/-! DEFINITION. The data packet disassembler: decode_data and DATCHK (spec/45_data_decoder.md). -/

namespace Sys2Proof.Machine

/-- The payload loop of decode_data (R181, R185): only the exact byte 0x23 is a marker, the byte after it goes through unescape
whatever it is, every other byte is copied; none when a marker is the last payload byte (BAD_ESCAPE). -/
def unescapePayload : List Byte → Option (List Byte)
  | [] => some []
  | [b] => if b = ESC_CHAR then none else some [b]
  | b :: e :: rest =>
    if b = ESC_CHAR then (unescapePayload rest).map (unescape e :: ·)
    else (unescapePayload (e :: rest)).map (b :: ·)

/-- decode_data (R181) over a frame F of n bytes: size, START, length, EOL, checksum, type, escapes, the first failing check
deciding (R183). -/
def decodeData (typeData : Byte) (f : List Byte) : DataResult :=
  let n := f.length
  if n < 6 then .badLength
  else
    match f with
    | f0 :: f1 :: f2 :: f3 :: _ =>
      if f0 ≠ START then .badStart
      else if (pvDecode f1).toNat ≠ n - 3 then .badLength
      else if f[n - 1]? ≠ some EOL then .badTerminator
      else
        let payload := slice f 4 (n - 2)
        let s := packetSum f1 f2 f3 payload
        if f[n - 2]? ≠ some (checksum s) then .checksumInvalid s
        else if f3 ≠ typeData then .unexpectedType s
        else
          match unescapePayload payload with
          | none => .badEscape s
          | some out => .ok s (pvDecode f2) out
    | _ => .badLength

/-- What a data check leaves in DEC and RSEQ (R182): on OK the payload and the sequence field; otherwise DEC_LEN <- 0, and RSEQ
stays. -/
def State.storePayload (s : State) : DataResult → State
  | .ok _ seq out => (s.setMem (s.mem.replace .dec out)).setRseq seq
  | .badLength | .badStart | .badTerminator | .checksumInvalid _ | .unexpectedType _ | .badEscape _ =>
    s.setMem (s.mem.clear .dec)

/-- DATCHK (R182): DATRES, SUM if it was computed, DEC and RSEQ. -/
def execDatchk (s : State) : Host.Outcome State Fault Refusal :=
  let r := decodeData s.cfg.typeData s.mem.rx
  .next (((s.setDatres (dataCode r)).noteSum (dataSum r)).storePayload r)

end Sys2Proof.Machine
end

