-- ==== Sys2Proof/Machine/Sequence.lean ====
section
/-! DEFINITION. The sequence-number wraparound tracker: SEQRST, SEQINC (spec/46_sequence_tracker.md). -/

namespace Sys2Proof.Machine

/-- SEQRST (R200): SEQ <- 0. -/
def execSeqrst (s : State) : Host.Outcome State Fault Refusal := .next (s.setSeq 0#7)

/-- SEQINC (R201): SEQ <- (SEQ + 1) mod 128. -/
def execSeqinc (s : State) : Host.Outcome State Fault Refusal :=
  .next (s.setSeq (BitVec.ofNat 7 ((s.seq.toNat + 1) % SEQ_MOD)))

end Sys2Proof.Machine
end

