-- ==== Sys2Proof/Machine/Dispatch.lean ====
section
/-! DEFINITION. One arm per command of Table R75 (spec/30_encoding.md). -/

namespace Sys2Proof.Machine

def exec (i : Instr) (s : State) : Host.Outcome State Fault Refusal :=
  match i with
  | .seqrst => Sys2Proof.Machine.execSeqrst s
  | .seqinc => Sys2Proof.Machine.execSeqinc s
  | .esctst b => Sys2Proof.Machine.execEsctst b s
  | .escenc b => Sys2Proof.Machine.execEscenc b s
  | .escdec b => Sys2Proof.Machine.execEscdec b s
  | .tochar v => Sys2Proof.Machine.execTochar v s
  | .unchar x => Sys2Proof.Machine.execUnchar x s
  | .cksum w => Sys2Proof.Machine.execCksum w s
  | .txclr => Sys2Proof.Machine.execTxclr s
  | .txpush b => Sys2Proof.Machine.execTxpush b s
  | .build => Sys2Proof.Machine.execBuild s
  | .rxclr => Sys2Proof.Machine.execRxclr s
  | .rxpush b => Sys2Proof.Machine.execRxpush b s
  | .ackchk => Sys2Proof.Machine.execAckchk s
  | .datchk => Sys2Proof.Machine.execDatchk s

end Sys2Proof.Machine
end

