-- ==== Sys2Proof/Machine/Port.lean ====
section
/-! DEFINITION. The BLOCK's ports: the command port (spec/30_encoding.md R70, R74), the RESET input (spec/70_reset_and_hazards.md
R290) and the read port (spec/20_memory.md R55), and what a free host does at them. -/

namespace Sys2Proof.Machine

/-- One command word at the command port (R70): decoded and performed as one step; a word that is no command records its fault
(R74, R262). -/
def issue (w : Command) (s : State) : Host.Outcome State Fault Refusal :=
  match decodeCmd w with
  | .instr i => exec i s
  | .fault c => .next (s.recordFault c)

/-- The transfer is over: the host is in Done or Abort (R233, R240). -/
def Controller.over (h : Controller) : Bool := h.hpc == .done || h.hpc == .abort

/-- One port action of the free host. A read changes nothing but the answer the host holds (R55); a refused read gives no value and
is no fault of the BLOCK. A new session is created when a transfer begins, and one that runs cannot be cancelled (R221, R238; log 23). -/
def doPort (a : PortAction) (s : State) : Host.Outcome State Fault Refusal :=
  match a with
  | .command w => issue w s
  | .reset => .next s.blockReset
  | .readReg n => .next (s.setReadData (readAnswer (s.readReg n)))
  | .readBuf b i => .next (s.setReadData (readAnswer ((s.readBuf b i).map (·.setWidth 16))))
  | .startTransfer => if s.host.over then .next (s.setHost Controller.init) else .refused .transferInProgress

end Sys2Proof.Machine
end

