-- ==== Sys2Proof/Machine/Controller.lean ====
section
/-! DEFINITION. The HOST: the Transfer Controller's state machine, one action a step, and its collaborators
(spec/48_host_controller.md R220-R234). Granularity and the model's own choices: logs 7 to 17 and 22. -/

namespace Sys2Proof.Machine

/-! ### The collaborators' answers (R222, R223; log 8) -/

/-- The answer of `open()`: the next placed one, else a free value. -/
def Env.takeOpen (e : Env) : Option (List Byte) × Env :=
  match e.opens with
  | a :: rest => (a, { e with opens := rest })
  | [] => (Config.drawFile e.draws, { e with draws := e.draws + 1 })

/-- The bytes of a transport read of exact length 6: the next placed answer, else a free value, cut to at most 6 (R223). -/
def Env.takeRead (e : Env) : List Byte × Env :=
  match e.reads with
  | a :: rest => (a.take ACK_FRAME_LEN, { e with reads := rest })
  | [] => ((Config.drawRead e.draws).take ACK_FRAME_LEN, { e with draws := e.draws + 1 })

/-- A transport write of these bytes: recorded, and answered by the next placed answer, else a free value. -/
def Env.takeWrite (e : Env) (bs : List Byte) : WriteResult × Env :=
  match e.writes with
  | a :: rest => (a, { e with writes := rest, wire := e.wire ++ [bs] })
  | [] => (Config.drawWrite e.draws, { e with draws := e.draws + 1, wire := e.wire ++ [bs] })

/-! ### The state machine -/

/-- The controller state of a position (R220). -/
def ctlState : Hpc → CtlState
  | .idleSeqrst | .idleOpen | .idleInit | .idleGoto => .idle
  | .chunkSize | .chunkRead | .chunkClear | .chunkFill | .chunkRetryZero | .chunkGoto => .chunking
  | .sendWrite => .send
  | .recvDelay | .recvRead | .recvClear | .recvFill | .recvDispatch => .receive
  | .advAccount | .advSeqinc | .advRetryZero | .advGoto => .advance
  | .retryCount | .retryLog | .retryDecide => .retry
  | .completeWrite => .complete
  | .done => .done
  | .abort => .abort

/-- The host moves on to another position. -/
def State.goto (s : State) (p : Hpc) : State := s.setHost { s.host with hpc := p }

/-- A terminal state with its outcome (R233, R234); the host closes the file (log 14). -/
def Controller.finish (h : Controller) (p : Hpc) (o : TransferOutcome) : Controller :=
  { h with hpc := p, outcome := some o, file := none }

/-- R224.2: open the file, and abort on an error. -/
def ctlOpen (s : State) : Host.Outcome State Fault Refusal :=
  match s.env.takeOpen with
  | (none, e) => .next ((s.setEnv e).setHost (s.host.finish .abort (.abortedTransport s.host.bytesSent)))
  | (some bs, e) => .next ((s.setEnv e).setHost { s.host with hpc := .idleInit, file := some bs })

/-- R224.3: remaining_bytes is the file's size(), bytes_sent and retry_count are 0. -/
def ctlInit (s : State) : Host.Outcome State Fault Refusal :=
  match s.host.file with
  | none => .fault .fileNotOpen
  | some bs =>
    .next (s.setHost { s.host with hpc := .idleGoto, remaining := bs.length, bytesSent := 0, retryCount := 0 })

/-- R224.4 and R230.4: Complete when nothing remains, Chunking otherwise. -/
def ctlNextChunk (s : State) : Host.Outcome State Fault Refusal :=
  .next (s.goto (if s.host.remaining = 0 then .completeWrite else .chunkSize))

/-- R225.1: chunk_len is min(MAX_CHUNK, remaining_bytes). -/
def ctlChunkSize (s : State) : Host.Outcome State Fault Refusal :=
  .next (s.setHost { s.host with hpc := .chunkRead, chunkLen := min s.cfg.maxChunk.toNat s.host.remaining })

/-- R225.2: read exactly chunk_len bytes from the file; a short read has no move (R239, log 9). -/
def ctlChunkRead (s : State) : Host.Outcome State Fault Refusal :=
  match s.host.file with
  | none => .fault .fileNotOpen
  | some bs =>
    if bs.length < s.host.chunkLen then .fault .shortFileRead
    else
      .next (s.setHost { s.host with
        hpc := .chunkClear, file := some (bs.drop s.host.chunkLen), fileBytes := bs.take s.host.chunkLen })

/-- R225.3 and R225.4: TXPUSH for each byte in file order, then BUILD. -/
def ctlChunkFill (s : State) : Host.Outcome State Fault Refusal :=
  match s.host.fileBytes with
  | b :: rest => issue (encode (.txpush b)) (s.setHost { s.host with fileBytes := rest })
  | [] => issue (encode .build) (s.goto .chunkRetryZero)

/-- R226: PKT, read through the read port in index order, goes to one transport write; any success, a short one included, goes to
Receive, an error to Abort. -/
def ctlSend (s : State) : Host.Outcome State Fault Refusal :=
  match s.env.takeWrite (s.mem.buf .pkt) with
  | (.success _, e) => .next ((s.setEnv e).goto .recvDelay)
  | (.error, e) => .next ((s.setEnv e).setHost (s.host.finish .abort (.abortedTransport s.host.bytesSent)))

/-- R227.2: a transport read of 6 bytes. -/
def ctlRecvRead (s : State) : Host.Outcome State Fault Refusal :=
  match s.env.takeRead with
  | (bs, e) => .next ((s.setEnv e).setHost { s.host with hpc := .recvClear, recvBytes := bs })

/-- R227.3: RXPUSH for each received byte in arrival order, then ACKCHK. -/
def ctlRecvFill (s : State) : Host.Outcome State Fault Refusal :=
  match s.host.recvBytes with
  | b :: rest => issue (encode (.rxpush b)) (s.setHost { s.host with recvBytes := rest })
  | [] => issue (encode .ackchk) (s.goto .recvDispatch)

/-- R228: ACKNOWLEDGED goes to Advance, a retryable result to Retry; ACKCHK leaves no other value (log 13). -/
def ctlDispatch (s : State) : Host.Outcome State Fault Refusal :=
  if s.ackres = ackCode .acknowledged then
    .next (s.setHost { s.host with hpc := .advAccount, ackSeen := s.ackres })
  else if retryable s.ackres then
    .next (s.setHost { s.host with hpc := .retryCount, ackSeen := s.ackres })
  else .fault .ackresNotResult

/-- R230.1: the chunk is accounted for. -/
def ctlAccount (s : State) : Host.Outcome State Fault Refusal :=
  .next (s.setHost { s.host with
    hpc := .advSeqinc, remaining := s.host.remaining - s.host.chunkLen, bytesSent := s.host.bytesSent + s.host.chunkLen })

/-- R231.2: UNEXPECTED_TYPE is logged as a protocol anomaly, with no effect on the BLOCK. -/
def ctlRetryLog (s : State) : Host.Outcome State Fault Refusal :=
  .next (s.setHost { s.host with
    hpc := .retryDecide,
    anomalies := if s.host.ackSeen = ackCode .unexpectedType then s.host.anomalies + 1 else s.host.anomalies })

/-- R231.3 and R231.4: at MAX_RETRY abort, reporting SEQ and bytes_sent; otherwise resend the same PKT. -/
def ctlRetryDecide (s : State) : Host.Outcome State Fault Refusal :=
  if MAX_RETRY ≤ s.host.retryCount then
    .next (s.setHost (s.host.finish .abort (.abortedRetry s.seq s.host.bytesSent)))
  else .next (s.goto .sendWrite)

/-- R232: the single byte ETX, unframed; Done on success, Abort on an error. -/
def ctlComplete (s : State) : Host.Outcome State Fault Refusal :=
  match s.env.takeWrite [ETX] with
  | (.success _, e) => .next ((s.setEnv e).setHost (s.host.finish .done .fullySent))
  | (.error, e) => .next ((s.setEnv e).setHost (s.host.finish .abort (.abortedTransport s.host.bytesSent)))

/-- The host's next action (R220): one action a step, a BLOCK command being one. In a terminal state it takes none, and nothing
changes (R233, log 12). -/
def ctlStep (s : State) : Host.Outcome State Fault Refusal :=
  match s.host.hpc with
  | .idleSeqrst => issue (encode .seqrst) (s.goto .idleOpen)
  | .idleOpen => ctlOpen s
  | .idleInit => ctlInit s
  | .idleGoto => ctlNextChunk s
  | .chunkSize => ctlChunkSize s
  | .chunkRead => ctlChunkRead s
  | .chunkClear => issue (encode .txclr) (s.goto .chunkFill)
  | .chunkFill => ctlChunkFill s
  | .chunkRetryZero => .next (s.setHost { s.host with hpc := .chunkGoto, retryCount := 0 })
  | .chunkGoto => .next (s.goto .sendWrite)
  | .sendWrite => ctlSend s
  | .recvDelay => .next (s.goto .recvRead)
  | .recvRead => ctlRecvRead s
  | .recvClear => issue (encode .rxclr) (s.goto .recvFill)
  | .recvFill => ctlRecvFill s
  | .recvDispatch => ctlDispatch s
  | .advAccount => ctlAccount s
  | .advSeqinc => issue (encode .seqinc) (s.goto .advRetryZero)
  | .advRetryZero => .next (s.setHost { s.host with hpc := .advGoto, retryCount := 0 })
  | .advGoto => ctlNextChunk s
  | .retryCount => .next (s.setHost { s.host with hpc := .retryLog, retryCount := s.host.retryCount + 1 })
  | .retryLog => ctlRetryLog s
  | .retryDecide => ctlRetryDecide s
  | .completeWrite => ctlComplete s
  | .done => .next s
  | .abort => .next s

end Sys2Proof.Machine
end

