-- ==== Sys2Proof/Machine/Step.lean ====
section
/-! DEFINITION. One step of the machine, and the placing of the word the next step runs. -/

namespace Sys2Proof.Machine

/-- One step: the free host's next port action if one is listed, otherwise the Transfer Controller's next action (log 5). -/
def step (s : State) : Host.Outcome State Fault Refusal :=
  match s.program with
  | a :: rest => doPort a (s.setProgram rest)
  | [] => ctlStep s

/-- s with this word presented next on the command port (R70): the BLOCK fetches nothing and stores no command (R21, R61), so a
word is placed in the host's program. The word is one 32-bit unit (R52). -/
def State.withFetchWord (s : State) (nbits w : Nat) : State :=
  s.setProgram (.command (BitVec.ofNat 32 (w % 2 ^ nbits)) :: s.program)

end Sys2Proof.Machine
end

