-- ==== Sys2Proof/Machine/Asm.lean ====
section
/-! DEFINITION. The assembler (spec/30_encoding.md R78) with its two pseudo-instructions (R79), and the host program notation
(spec/48_host_controller.md R241). Text is a list of characters. Details R78 does not give: log 21. -/

namespace Sys2Proof.Machine

/-! ### Text -/

/-- The mnemonics of Table R75. -/
def mnemonicOf : Instr → List Char
  | .seqrst => ['S', 'E', 'Q', 'R', 'S', 'T']
  | .seqinc => ['S', 'E', 'Q', 'I', 'N', 'C']
  | .esctst _ => ['E', 'S', 'C', 'T', 'S', 'T']
  | .escenc _ => ['E', 'S', 'C', 'E', 'N', 'C']
  | .escdec _ => ['E', 'S', 'C', 'D', 'E', 'C']
  | .tochar _ => ['T', 'O', 'C', 'H', 'A', 'R']
  | .unchar _ => ['U', 'N', 'C', 'H', 'A', 'R']
  | .cksum _ => ['C', 'K', 'S', 'U', 'M']
  | .txclr => ['T', 'X', 'C', 'L', 'R']
  | .txpush _ => ['T', 'X', 'P', 'U', 'S', 'H']
  | .build => ['B', 'U', 'I', 'L', 'D']
  | .rxclr => ['R', 'X', 'C', 'L', 'R']
  | .rxpush _ => ['R', 'X', 'P', 'U', 'S', 'H']
  | .ackchk => ['A', 'C', 'K', 'C', 'H', 'K']
  | .datchk => ['D', 'A', 'T', 'C', 'H', 'K']

/-- The command of each mnemonic, given its operand's value (0 for class N). -/
def asmRows (v : Nat) : List Instr :=
  [.seqrst, .seqinc, .esctst (BitVec.ofNat 8 v), .escenc (BitVec.ofNat 8 v), .escdec (BitVec.ofNat 8 v),
    .tochar (BitVec.ofNat 8 v), .unchar (BitVec.ofNat 8 v), .cksum (BitVec.ofNat 16 v), .txclr,
    .txpush (BitVec.ofNat 8 v), .build, .rxclr, .rxpush (BitVec.ofNat 8 v), .ackchk, .datchk]

/-- One operand as written: a number, or a character in single quotes, which stands for a byte (R78). -/
inductive AsmOperand where
  | number (v : Nat)
  | character (v : Nat)
  deriving DecidableEq, Repr

/-- The value of an operand for its class; a quoted character is a byte's form only (R78). -/
def operandValue : OpClass → AsmOperand → Option Nat
  | _, .number v => some v
  | .b, .character v => some v
  | _, .character _ => none

/-- A digit's value in base 10 or 16. -/
def digitValue (base : Nat) (c : Char) : Option Nat :=
  let n := c.toNat
  let v :=
    if 48 ≤ n ∧ n ≤ 57 then n - 48
    else if 65 ≤ n ∧ n ≤ 70 then n - 55
    else if 97 ≤ n ∧ n ≤ 102 then n - 87
    else base
  if v < base then some v else none

/-- A digit string's value, most significant digit first, from the value read so far. -/
def digitsValue (base : Nat) (acc : Nat) : List Char → Option Nat
  | [] => some acc
  | c :: rest =>
    match digitValue base c with
    | some d => digitsValue base (acc * base + d) rest
    | none => none

/-- An operand's text: 0x and hex digits, decimal digits, or a quoted character (R78). -/
def parseOperand : List Char → Option AsmOperand
  | ['\'', c, '\''] => some (.character c.toNat)
  | '0' :: 'x' :: d :: ds => (digitsValue 16 0 (d :: ds)).map .number
  | d :: ds => (digitsValue 10 0 (d :: ds)).map .number
  | [] => none

/-- Add a finished token. -/
def flushToken (cur : List Char) (rest : List (List Char)) : List (List Char) :=
  match cur with
  | [] => rest
  | _ => cur :: rest

/-- The tokens of a line; a comment begins with a semicolon outside quotes (R78). DESIGN CHOICE (log 21): blanks, tabs and commas
separate, any number of them in a row; a quoted character is a token of its own with or without a separator around it. -/
def tokens (cur : List Char) : List Char → List (List Char)
  | [] => flushToken cur []
  | '\'' :: c :: '\'' :: rest => flushToken cur (['\'', c, '\''] :: tokens [] rest)
  | c :: rest =>
    if c = ';' then flushToken cur []
    else if c = ' ' ∨ c = '\t' ∨ c = ',' then flushToken cur (tokens [] rest)
    else tokens (cur ++ [c]) rest

/-! ### Assembling -/

/-- One command's word from its mnemonic and operands; a wrong operand count or an operand too large is an assembly error, refused
and never encoded (R78). -/
def assembleCommand (name : List Char) (ops : List AsmOperand) : Option Command :=
  match (asmRows 0).find? (fun i => mnemonicOf i == name) with
  | none => none
  | some row =>
    match ops with
    | [] => if operandFits row.opClass none then some (encode row) else none
    | [o] =>
      match operandValue row.opClass o with
      | none => none
      | some v =>
        if operandFits row.opClass (some v) then
          ((asmRows v).find? (fun i => mnemonicOf i == name)).map encode
        else none
    | _ => none

/-- Push words for each operand, all of them bytes. -/
def assemblePushes (push : Byte → Instr) : List AsmOperand → Option (List Command)
  | [] => some []
  | o :: rest =>
    match operandValue .b o, assemblePushes push rest with
    | some v, some ws => if operandFits .b (some v) then some (encode (push (BitVec.ofNat 8 v)) :: ws) else none
    | _, _ => none

/-- TXLOAD is TXCLR and a TXPUSH for each byte (R79). -/
def assembleTxload (ops : List AsmOperand) : Option (List Command) :=
  (assemblePushes .txpush ops).map (encode .txclr :: ·)

/-- RXLOAD is RXCLR and an RXPUSH for each byte (R79). -/
def assembleRxload (ops : List AsmOperand) : Option (List Command) :=
  (assemblePushes .rxpush ops).map (encode .rxclr :: ·)

/-- Every element of a list, if all are there. -/
def allSome {α : Type} : List (Option α) → Option (List α)
  | [] => some []
  | some a :: rest => (allSome rest).map (a :: ·)
  | none :: _ => none

/-- The words of one source line (R78, R79); a blank or comment line has none, an erroneous line is refused. -/
def assembleLine (line : List Char) : Option (List Command) :=
  match tokens [] line with
  | [] => some []
  | name :: args =>
    match allSome (args.map parseOperand) with
    | none => none
    | some ops =>
      if name = ['T', 'X', 'L', 'O', 'A', 'D'] then assembleTxload ops
      else if name = ['R', 'X', 'L', 'O', 'A', 'D'] then assembleRxload ops
      else (assembleCommand name ops).map (fun w => [w])

/-! ### Listing -/

/-- A hex digit. -/
def hexDigit (v : Nat) : Char := Char.ofNat (if v < 10 then 48 + v else 55 + v)

/-- The last k hex digits of a number, most significant first. -/
def hexDigits : Nat → Nat → List Char
  | 0, _ => []
  | k + 1, v => hexDigits k (v / 16) ++ [hexDigit (v % 16)]

/-- A command's source text, its operand in hex (R78). -/
def asmText (i : Instr) : List Char :=
  match i.opClass with
  | .n => mnemonicOf i
  | .b => mnemonicOf i ++ [' ', '0', 'x'] ++ hexDigits 2 (immOf i).toNat
  | .w => mnemonicOf i ++ [' ', '0', 'x'] ++ hexDigits 4 (immOf i).toNat

/-- A listing line: the word in eight hex digits, bits 31 to 0, then the source text (R78). The two blanks between them are those of
R78's example (log 21). -/
def listingLine (w : Command) (text : List Char) : List Char := hexDigits 8 w.toNat ++ [' ', ' '] ++ text

/-- The source lines a line stands for: a pseudo-instruction's expansion, each operand as written (R79), and any other line itself.
DESIGN CHOICE (log 21): a comment on a pseudo-instruction's line is on no line of its expansion. -/
def expandSource (line : List Char) : List (List Char) :=
  match tokens [] line with
  | [] => [line]
  | name :: args =>
    if name = ['T', 'X', 'L', 'O', 'A', 'D'] then
      mnemonicOf .txclr :: args.map (fun a => mnemonicOf (.txpush 0#8) ++ [' '] ++ a)
    else if name = ['R', 'X', 'L', 'O', 'A', 'D'] then
      mnemonicOf .rxclr :: args.map (fun a => mnemonicOf (.rxpush 0#8) ++ [' '] ++ a)
    else [line]

/-- The listing of one source line (R78, R79): each word with the text it was assembled from, as it was written. An erroneous line has
none. DESIGN CHOICE (log 21): a blank or comment line, which has no word, is listed as it was written. -/
def listSource (line : List Char) : Option (List (List Char)) :=
  match assembleLine line with
  | none => none
  | some [] => some [line]
  | some ws => some (List.zipWith listingLine ws (expandSource line))

/-! ### Host program notation (R241) -/

/-- A line of a host program: a BLOCK command or a host action. -/
inductive HostLine where
  | command (i : Instr)
  /-- H.OPEN size. -/
  | hOpen (size : Nat)
  /-- H.FILE b0 ... bn-1. -/
  | hFile (bs : List Byte)
  /-- H.WRITE PKT. -/
  | hWritePkt
  /-- H.WRITE 0x03. -/
  | hWriteEtx
  /-- H.READ b0 ... bk-1. -/
  | hRead (bs : List Byte)
  /-- H.GOTO state. -/
  | hGoto (st : CtlState)
  deriving DecidableEq, Repr

/-- The command words of a host program: host actions have none, and only BLOCK commands are encoded (R241). -/
def hostWords : List HostLine → List Command
  | [] => []
  | .command i :: rest => encode i :: hostWords rest
  | _ :: rest => hostWords rest

/-- The bytes the H.FILE lines of a host program say, in order (R241). DESIGN CHOICE (log 24): the lines are joined into one file, which
the host reads chunk_len bytes at a time, so a line whose byte count is not its read's chunk_len is no short read. -/
def hostFile : List HostLine → List Byte
  | [] => []
  | .hFile bs :: rest => bs ++ hostFile rest
  | _ :: rest => hostFile rest

/-- The size the H.OPEN line gives (R241). DESIGN CHOICE (log 24): a program is one transfer's, so the first such line counts. -/
def hostSize : List HostLine → Option Nat
  | [] => none
  | .hOpen size :: _ => some size
  | _ :: rest => hostSize rest

/-- The transport writes of a host program, PKT's and the ETX's. -/
def hostWrites : List HostLine → Nat
  | [] => 0
  | .hWritePkt :: rest | .hWriteEtx :: rest => hostWrites rest + 1
  | _ :: rest => hostWrites rest

/-- The transport reads' bytes, in order. -/
def hostReads : List HostLine → List (List Byte)
  | [] => []
  | .hRead bs :: rest => bs :: hostReads rest
  | _ :: rest => hostReads rest

/-- A file of exactly this size that begins with these bytes. DESIGN CHOICE (log 24): R241 leaves open the bytes no H.FILE line says,
which are free values, and what bytes beyond the size would mean, which are dropped. -/
def fileOfSize (size : Nat) (said : List Byte) : List Byte :=
  said.take size ++ (List.range (size - said.length)).map (fun i => Config.fileByte (said.length + i))

/-- The collaborators' answers that a host program's actions state, for one transfer (R241): a file of the size H.OPEN gives, holding
the bytes the H.FILE lines say, the transport reads' bytes, and a success for each write, whose count is a free value (log 24). -/
def hostEnv (p : List HostLine) : Env :=
  { opens := (hostSize p).toList.map (fun size => some (fileOfSize size (hostFile p))),
    reads := hostReads p,
    writes := (List.range (hostWrites p)).map (fun n => .success (Config.writeCount n)),
    draws := 0, wire := [] }

end Sys2Proof.Machine
end

