-- ==== Sys2Proof/Safety.lean ====
section
/-! DEFINITION. What the claims are stated in: the state invariant, a conforming transfer, the end of a run, and runs of commands. -/

namespace Sys2Proof.Machine

/-! ### The BLOCK's invariant -/

/-- The values STATUS can hold: no fault, or FAULT with a cause from 1 to 4 (R23); so bits 7:4 read 0 (V6) and the unused codes are
never recorded (R261). -/
def statusLegal (v : BitVec 8) : Bool := v == 0x00#8 || v == 0x03#8 || v == 0x05#8 || v == 0x07#8 || v == 0x09#8

/-- OUT and OUTN agree: OUTN is 0, 1 or 2, OUT[15:8] is 0 unless two bytes are valid, and OUT is 0 when none is (R22, V9). -/
def outLegal (out : Word16) (outn : BitVec 2) : Bool :=
  outn != 3#2 && (outn == 2#2 || out.extractLsb' 8 8 == 0#8) && (outn != 0#2 || out == 0#16)

/-- PKT holds nothing, or one whole data packet of some chunk and sequence number, and nothing else (R32, R143). -/
def packetWhole (c : Config) (pkt : List Byte) : Prop :=
  pkt = [] ∨ ∃ (seq : BitVec 7) (chunk : List Byte),
    chunk.length ≤ capacity c .chunk ∧ pkt = dataPacket (seq.setWidth 8) c.typeData (escaped chunk)

/-- The BLOCK's invariant: legal build constants (R7, R9), buffers within their capacities (R8, R30), a legal STATUS (R23), an ACKRES
code in use (R24), OUT and OUTN in agreement, and a whole packet in PKT (R32). -/
def State.Inv (s : State) : Prop :=
  s.cfg.wf = true ∧ s.mem.wf s.cfg = true ∧ statusLegal s.status = true ∧ s.ackres.toNat ≤ 5
    ∧ outLegal s.out s.outn = true ∧ packetWhole s.cfg s.mem.pkt

/-! ### Command faults -/

/-- The fault a word at the port raises in this state, if any: it does not decode, or its push would overrun a full buffer (R260,
R261); decoding comes first (R264). -/
def commandFault (w : Command) (s : State) : Option FaultCause :=
  match decodeCmd w with
  | .fault c => some c
  | .instr (.txpush _) => if s.mem.chunk.length = capacity s.cfg .chunk then some .chunkOverflow else none
  | .instr (.rxpush _) => if s.mem.rx.length = capacity s.cfg .rx then some .rxOverflow else none
  | .instr _ => none

/-! ### Runs -/

/-- Commands run one after another, each from the state the last one left (R58); stops at the first that answers no next state. -/
def runCommands : List Instr → State → Host.Outcome State Fault Refusal
  | [], s => .next s
  | i :: rest, s =>
    match exec i s with
    | .next t => runCommands rest t
    | .fault r => .fault r
    | .refused r => .refused r

/-- Words presented one after another, legal or illegal (R70): a word that faults is recorded and the next one follows (R262). -/
def issueAll : List Command → State → Host.Outcome State Fault Refusal
  | [], s => .next s
  | w :: rest, s =>
    match issue w s with
    | .next t => issueAll rest t
    | .fault r => .fault r
    | .refused r => .refused r

/-- The host has reached Done or Abort with a set outcome, and the free host has nothing left to do: the end of a run (R240). -/
def State.runOver (s : State) : Bool := s.program.isEmpty && s.host.over && s.host.outcome.isSome

/-! ### A conforming transfer: the host issues commands only as R224 to R232 list (R239) -/

/-- The open file has this many unread bytes. -/
def fileHolds (h : Controller) (n : Nat) : Prop := ∃ bs, h.file = some bs ∧ bs.length = n

/-- A chunk of a legal length is taken from the file, and the rest is still unread. -/
def chunkTaken (s : State) : Prop :=
  0 < s.host.chunkLen ∧ s.host.chunkLen ≤ s.cfg.maxChunk.toNat ∧ s.host.chunkLen ≤ s.host.remaining
    ∧ fileHolds s.host (s.host.remaining - s.host.chunkLen)

/-- PKT is the data packet of the chunk in flight at the present sequence number (R32, R203). -/
def packetInFlight (s : State) : Prop :=
  s.mem.chunk.length = s.host.chunkLen ∧ s.mem.pkt = dataPacket s.seqByte s.cfg.typeData (escaped s.mem.chunk)

/-- A packet is in flight and fewer than MAX_RETRY attempts have failed. -/
def attempting (s : State) : Prop := chunkTaken s ∧ packetInFlight s ∧ s.host.retryCount < MAX_RETRY

/-- What holds at each position of a conforming transfer (R224 to R233). -/
def sessionAt (s : State) : Hpc → Prop
  | .idleSeqrst => True
  | .idleOpen => True
  | .idleInit => ∃ bs, s.host.file = some bs
  | .idleGoto => fileHolds s.host s.host.remaining
  | .chunkSize => fileHolds s.host s.host.remaining ∧ 0 < s.host.remaining
  | .chunkRead =>
    fileHolds s.host s.host.remaining ∧ 0 < s.host.chunkLen ∧ s.host.chunkLen ≤ s.cfg.maxChunk.toNat
      ∧ s.host.chunkLen ≤ s.host.remaining
  | .chunkClear => chunkTaken s ∧ s.host.fileBytes.length = s.host.chunkLen
  | .chunkFill => chunkTaken s ∧ s.mem.chunk.length + s.host.fileBytes.length = s.host.chunkLen
  | .chunkRetryZero => chunkTaken s ∧ packetInFlight s
  | .chunkGoto => attempting s
  | .sendWrite => attempting s
  | .recvDelay => attempting s
  | .recvRead => attempting s
  | .recvClear => attempting s ∧ s.host.recvBytes.length ≤ ACK_FRAME_LEN
  | .recvFill => attempting s ∧ s.mem.rx.length + s.host.recvBytes.length ≤ ACK_FRAME_LEN
  | .recvDispatch => attempting s ∧ (s.ackres = ackCode .acknowledged ∨ retryable s.ackres = true)
  | .advAccount => attempting s
  | .advSeqinc => fileHolds s.host s.host.remaining
  | .advRetryZero => fileHolds s.host s.host.remaining
  | .advGoto => fileHolds s.host s.host.remaining
  | .retryCount => attempting s
  | .retryLog => chunkTaken s ∧ packetInFlight s ∧ s.host.retryCount ≤ MAX_RETRY
  | .retryDecide => chunkTaken s ∧ packetInFlight s ∧ s.host.retryCount ≤ MAX_RETRY
  | .completeWrite => s.host.remaining = 0
  | .done => s.host.outcome = some .fullySent ∧ s.host.remaining = 0
  | .abort => ∃ o, s.host.outcome = some o ∧ o ≠ .fullySent ∧ o ≠ .resourceFailure

/-- A conforming transfer is under way or over: the free host adds no port action, and what its position asks holds. -/
def State.Conforming (s : State) : Prop := s.cfg.wf = true ∧ s.program = [] ∧ sessionAt s s.host.hpc

/-! ### What a transfer puts on the wire (R236) -/

/-- The packets of a file sent in chunks of k bytes from sequence number n on (R225, R236). The fuel is any number at least the
file's length. -/
def filePackets (k : Nat) (typeData : Byte) : Nat → BitVec 7 → List Byte → List (List Byte)
  | 0, _, _ => []
  | fuel + 1, n, bytes =>
    if bytes.isEmpty then []
    else
      dataPacket (n.setWidth 8) typeData (escaped (bytes.take k))
        :: filePackets k typeData fuel (n + 1#7) (bytes.drop k)

/-- A well-formed acknowledgment of this sequence number (Table R81). -/
def ackFrame (c : Config) (n : BitVec 7) : List Byte :=
  let fLen := pvEncode HDR_COUNT
  let fSeq := pvEncode n.toNat
  [START, fLen, fSeq, c.typeAck, checksum (fLen.toNat + fSeq.toNat + c.typeAck.toNat), EOL]

/-- Acknowledgments of k packets from sequence number n on. -/
def ackFrames (c : Config) : Nat → BitVec 7 → List (List Byte)
  | 0, _ => []
  | k + 1, n => ackFrame c n :: ackFrames c k (n + 1#7)

end Sys2Proof.Machine
end

