-- ==== Sys2Proof/Certificates/Slice0/Obligations.lean ====
section
/-! DEFINITION. The statements for the provers, each from the numbered rules of spec/ its docstring names. -/

open Sys2Proof Sys2Proof.Machine

/-! ### Command words -/

/-- R74, R75, R78: a word decodes to a command exactly when it is that command's word, so decode and encode agree in both
directions and no two commands share a word. -/
def Obligations.WordDecodesExactlyToItsCommand : Prop :=
  ∀ (w : Command) (i : Instr), decodeCmd w = .instr i ↔ w = encode i

/-- R72, R74: the first failing check decides the fault: opcode, then RSV, then the bits of IMM its class wants zero; a word that
passes them all is a command with that opcode and operand. -/
def Obligations.FirstFailingDecodeCheckDecides : Prop :=
  ∀ w : Command,
    let op := w.toNat / 2 ^ 24
    let rsv := w.toNat / 2 ^ 16 % 256
    let imm := w.toNat % 2 ^ 16
    let classN := [0x01, 0x02, 0x40, 0x42, 0x50, 0x52, 0x53]
    let classB := [0x10, 0x11, 0x12, 0x20, 0x21, 0x41, 0x51]
    let classW := [0x30]
    let assigned := op ∈ classN ∨ op ∈ classB ∨ op ∈ classW
    let badBits := rsv ≠ 0 ∨ (op ∈ classN ∧ imm ≠ 0) ∨ (op ∈ classB ∧ imm / 256 ≠ 0)
    (¬ assigned → decodeCmd w = .fault .illegalOpcode)
      ∧ (assigned → badBits → decodeCmd w = .fault .reservedField)
      ∧ (assigned → ¬ badBits →
        ∃ i, decodeCmd w = .instr i ∧ (opcodeOf i).toNat = op ∧ (immOf i).toNat = imm)

/-- R75: words written out from Table R75 and the rules' examples, one or more of each family, decode to the commands they
stand for. -/
def Obligations.TabledWordsDecode : Prop :=
  decodeCmd 0x02000000#32 = .instr .seqinc ∧ decodeCmd 0x10000023#32 = .instr (.esctst 0x23#8)
    ∧ decodeCmd 0x20000067#32 = .instr (.tochar 103#8) ∧ decodeCmd 0x30000087#32 = .instr (.cksum 0x87#16)
    ∧ decodeCmd 0x41000048#32 = .instr (.txpush 0x48#8) ∧ decodeCmd 0x42000000#32 = .instr .build
    ∧ decodeCmd 0x52000000#32 = .instr .ackchk ∧ decodeCmd 0x53000000#32 = .instr .datchk
    ∧ decodeCmd 0x00000000#32 = .fault .illegalOpcode ∧ decodeCmd 0x41000141#32 = .fault .reservedField

/-- R70, R74: a step with a command word at the port performs the decoded command, the word being taken from the port; placing a
word makes it the next the machine runs, in the very state it was placed in. That the waiting words stand in the field program and
come before the host's own actions is the model's choice (log 5). -/
def Obligations.StepPerformsThePresentedCommand : Prop :=
  (∀ (s : State) (w : Command) (rest : List PortAction) (i : Instr),
      s.program = .command w :: rest → decodeCmd w = .instr i → step s = exec i { s with program := rest })
    ∧ (∀ (s : State) (w : Nat) (i : Instr), decodeTableWord 32 w = some i → step (s.withFetchWord 32 w) = exec i s)

/-- R78: the assembler gives a command's source text, with its operand in hex, exactly its word. The blank and the number of hex digits
in that text are the model's choice (log 21). -/
def Obligations.AssemblerGivesTheWord : Prop :=
  ∀ i : Instr, assembleLine (asmText i) = some [encode i]

/-- R78: a class B operand above 0xFF or a class W operand above 0xFFFF is refused and never encoded. -/
def Obligations.AssemblerRefusesLargeOperands : Prop :=
  ∀ (i : Instr) (v : Nat),
    (i.opClass = .b → 0xFF < v → assembleCommand (mnemonicOf i) [.number v] = none)
      ∧ (i.opClass = .w → 0xFFFF < v → assembleCommand (mnemonicOf i) [.number v] = none)

/-- R79: TXLOAD and RXLOAD expand to the clear and one push for each byte, in order; with no byte, to the clear alone. -/
def Obligations.PseudoInstructionsExpand : Prop :=
  ∀ bs : List Byte,
    assembleTxload (bs.map (fun b => .number b.toNat)) = some (encode .txclr :: bs.map (fun b => encode (.txpush b)))
      ∧ assembleRxload (bs.map (fun b => .number b.toNat)) = some (encode .rxclr :: bs.map (fun b => encode (.rxpush b)))

/-- R78, R79: a source line that assembles to words is listed with one line for each word: the first eight characters are the word in
hex, and the text from the eleventh on assembles to that word again. A line that is no pseudo-instruction is listed with its text as
it was written. The two blanks between word and text are the model's reading of R78's example (log 21). -/
def Obligations.ListingShowsEachWordWithItsSource : Prop :=
  ∀ (line : List Char) (w : Command) (ws : List Command), assembleLine line = some (w :: ws) →
    ∃ ls, listSource line = some ls
      ∧ ls.map (fun l => digitsValue 16 0 (l.take 8)) = (w :: ws).map (fun v => some v.toNat)
      ∧ ls.map (fun l => assembleLine (l.drop 10)) = (w :: ws).map (fun v => some [v])
      ∧ ((tokens [] line).head? ≠ some "TXLOAD".toList → (tokens [] line).head? ≠ some "RXLOAD".toList →
        ls.map (fun l => l.drop 10) = [line])

/-! ### Sequence tracker -/

/-- R200, R201: SEQRST (word 0x01000000) makes SEQ 0 and SEQINC (word 0x02000000) adds 1 modulo 128; each completes in every state
and changes nothing else. -/
def Obligations.SequenceCommandsWriteSeq : Prop :=
  decodeCmd 0x01000000#32 = .instr .seqrst ∧ decodeCmd 0x02000000#32 = .instr .seqinc
    ∧ ∀ s : State,
      exec .seqrst s = .next { s with seq := 0#7 }
        ∧ ∃ t, exec .seqinc s = .next t ∧ t.seq.toNat = (s.seq.toNat + 1) % 128 ∧ t = { s with seq := t.seq }

/-- R202: from SEQ = 0, whatever words are presented, legal or not, if none is SEQRST then SEQ is the number of SEQINC words modulo
128; so it is 0 again after 128 of them. The words are all taken. -/
def Obligations.SeqCountsModulo128 : Prop :=
  ∀ (s : State) (ws : List Command), s.seq = 0#7 → 0x01000000#32 ∉ ws →
    ∃ t, issueAll ws s = .next t ∧ t.seq.toNat = ws.count 0x02000000#32 % 128

/-! ### Byte escaper -/

/-- R100, R110: ESCTST answers 1 exactly for the bytes whose low 7 bits are below 0x20, 0x7F or 0x23; bit 7 does not matter. It
completes in every state and writes OUT and OUTN only. -/
def Obligations.EsctstTestsTheLowSevenBits : Prop :=
  ∀ (s : State) (b : Byte),
    decodeCmd (0x10000000#32 ||| b.setWidth 32) = .instr (.esctst b)
      ∧ exec (.esctst b) s =
        .next { s with
          out := if b.toNat % 128 < 0x20 ∨ b.toNat % 128 = 0x7F ∨ b.toNat % 128 = 0x23 then 1#16 else 0#16, outn := 1#2 }

/-- R111: ESCENC gives the byte itself, or the marker 0x23 in OUT[7:0] with the byte after it in OUT[15:8]: the byte itself for the
escape character with either bit 7, otherwise the byte with 0x40 flipped. It completes in every state and writes OUT and OUTN only. -/
def Obligations.EscencEmitsTheEscapedForm : Prop :=
  ∀ (s : State) (b : Byte),
    let v := b.toNat
    let m := v % 128
    decodeCmd (0x11000000#32 ||| b.setWidth 32) = .instr (.escenc b)
      ∧ exec (.escenc b) s =
        .next (if m = 0x23 then { s with out := BitVec.ofNat 16 (0x23 + 256 * v), outn := 2#2 }
          else if m < 0x20 then { s with out := BitVec.ofNat 16 (0x23 + 256 * (v + 0x40)), outn := 2#2 }
          else if m = 0x7F then { s with out := BitVec.ofNat 16 (0x23 + 256 * (v - 0x40)), outn := 2#2 }
          else { s with out := BitVec.ofNat 16 v, outn := 1#2 })

/-- R112: ESCDEC gives b unchanged when its low 7 bits are 0x23 and b with bit 6 flipped otherwise, for every b. It completes in
every state and writes OUT and OUTN only. -/
def Obligations.EscdecRecoversTheOriginal : Prop :=
  ∀ (s : State) (b : Byte),
    let v := b.toNat
    decodeCmd (0x12000000#32 ||| b.setWidth 32) = .instr (.escdec b)
      ∧ exec (.escdec b) s =
        .next { s with
          out := BitVec.ofNat 16 (if v % 128 = 0x23 then v else if v / 64 % 2 = 0 then v + 0x40 else v - 0x40), outn := 1#2 }

/-- R104: (a) a byte that must be escaped comes back from the byte after its marker; (b) where the emitted bytes lie; (c) none is
START or EOL; (d) unescape is not one-to-one over all bytes, and is on the bytes esc_expand can put after a marker. -/
def Obligations.EscaperHasItsProperties : Prop :=
  (∀ b : Byte, shouldEscape b = true →
      ∃ e, escExpand b = [ESC_CHAR, e] ∧ unescape e = b
        ∧ (e.toNat % 128 = 0x23 ∨ e.toNat % 128 = 0x3F ∨ (0x40 ≤ e.toNat % 128 ∧ e.toNat % 128 ≤ 0x5F)))
    ∧ (∀ b : Byte, shouldEscape b = false →
      escExpand b = [b] ∧ 0x20 ≤ b.toNat % 128 ∧ b.toNat % 128 ≤ 0x7E ∧ b.toNat % 128 ≠ 0x23)
    ∧ (∀ b x : Byte, x ∈ escExpand b → 0x20 ≤ x.toNat % 128 ∧ x.toNat % 128 ≤ 0x7E ∧ x ≠ START ∧ x ≠ EOL)
    ∧ unescape 0x63#8 = 0x23#8 ∧ unescape 0x23#8 = 0x23#8
    ∧ (∀ a b e f : Byte, escExpand a = [ESC_CHAR, e] → escExpand b = [ESC_CHAR, f] → unescape e = unescape f → e = f)

/-- R102: the escaped form of a chunk is its bytes' escaped forms in order, one marker more for each byte that must be escaped, so
it has between n and 2n bytes. -/
def Obligations.EscapedChunkLength : Prop :=
  ∀ c : List Byte,
    (escaped c).length = c.length + (c.filter shouldEscape).length
      ∧ c.length ≤ (escaped c).length ∧ (escaped c).length ≤ 2 * c.length

/-- R104 (b), (c): every byte of an escaped chunk has low 7 bits from 0x20 to 0x7E, so none is START or EOL. -/
def Obligations.EscapedBytesAreNoDelimiters : Prop :=
  ∀ (c : List Byte) (x : Byte), x ∈ escaped c →
    0x20 ≤ x.toNat % 128 ∧ x.toNat % 128 ≤ 0x7E ∧ x ≠ START ∧ x ≠ EOL

/-- R104 (a), R187: decoding the escaped form of any chunk gives the chunk back, byte for byte. -/
def Obligations.EscapingIsInvertible : Prop :=
  ∀ c : List Byte, unescapePayload (escaped c) = some c

/-! ### Printable-value codec and checksum -/

/-- R123, R124: TOCHAR gives (v + 32) mod 256 and UNCHAR (x + 224) mod 256, on every operand, with no range fault. Both complete in
every state and write OUT and OUTN only. -/
def Obligations.CodecCommandsWrapModulo256 : Prop :=
  ∀ (s : State) (v : Byte),
    decodeCmd (0x20000000#32 ||| v.setWidth 32) = .instr (.tochar v)
      ∧ decodeCmd (0x21000000#32 ||| v.setWidth 32) = .instr (.unchar v)
      ∧ exec (.tochar v) s = .next { s with out := BitVec.ofNat 16 ((v.toNat + 32) % 256), outn := 1#2 }
      ∧ exec (.unchar v) s = .next { s with out := BitVec.ofNat 16 ((v.toNat + 224) % 256), outn := 1#2 }

/-- R122: decode undoes encode on every value from 0 to 255, and encode undoes decode on every byte. -/
def Obligations.CodecRoundTrips : Prop :=
  (∀ v : Nat, v ≤ 255 → (pvDecode (pvEncode v)).toNat = v) ∧ (∀ x : Byte, pvEncode (pvDecode x).toNat = x)

/-- R134: CKSUM adds bits 7:6 of w to w once, keeps 6 bits and offsets by 0x20, on every w. It completes in every state, writes OUT
and OUTN only, and not SUM. -/
def Obligations.CksumFoldsOnce : Prop :=
  ∀ (s : State) (w : Word16),
    decodeCmd (0x30000000#32 ||| w.setWidth 32) = .instr (.cksum w)
      ∧ exec (.cksum w) s =
        .next { s with out := BitVec.ofNat 16 (32 + (w.toNat + w.toNat / 64 % 4) % 64), outn := 1#2 }

/-- R131: checksum reads only bits 7:0 of the sum, and its byte lies from 0x20 to 0x5F. -/
def Obligations.ChecksumReadsTheLowByte : Prop :=
  ∀ v : Nat, checksum v = checksum (v % 256) ∧ 0x20 ≤ (checksum v).toNat ∧ (checksum v).toNat ≤ 0x5F

/-! ### Packet encoder -/

/-- R140, R160: TXCLR (word 0x40000000) empties CHUNK and RXCLR (word 0x50000000) empties RX, so that no entry holds a value; each
completes in every state and changes nothing else. -/
def Obligations.ClearCommandsEmptyTheirBuffer : Prop :=
  decodeCmd 0x40000000#32 = .instr .txclr ∧ decodeCmd 0x50000000#32 = .instr .rxclr
    ∧ ∀ s : State,
      exec .txclr s = .next { s with mem := { s.mem with chunk := [] } }
        ∧ exec .rxclr s = .next { s with mem := { s.mem with rx := [] } }

/-- R141, R161: a push onto a buffer that is not full appends the byte; a push onto a full one leaves the buffers and every other
register and records CHUNK_OVERFLOW (3) or RX_OVERFLOW (4) in STATUS if no fault was recorded. CHUNK is full at MAX_CHUNK bytes and
RX at 2·MAX_CHUNK + 6. -/
def Obligations.PushAppendsOrOverflows : Prop :=
  ∀ (s : State) (b : Byte),
    decodeCmd (0x41000000#32 ||| b.setWidth 32) = .instr (.txpush b)
      ∧ decodeCmd (0x51000000#32 ||| b.setWidth 32) = .instr (.rxpush b)
      ∧ (s.mem.chunk.length ≠ s.cfg.maxChunk.toNat →
        exec (.txpush b) s = .next { s with mem := { s.mem with chunk := s.mem.chunk ++ [b] } })
      ∧ (s.mem.chunk.length = s.cfg.maxChunk.toNat →
        exec (.txpush b) s = .next { s with status := if s.status.toNat % 2 = 0 then 0x07#8 else s.status })
      ∧ (s.mem.rx.length ≠ 2 * s.cfg.maxChunk.toNat + 6 →
        exec (.rxpush b) s = .next { s with mem := { s.mem with rx := s.mem.rx ++ [b] } })
      ∧ (s.mem.rx.length = 2 * s.cfg.maxChunk.toNat + 6 →
        exec (.rxpush b) s = .next { s with status := if s.status.toNat % 2 = 0 then 0x09#8 else s.status })

/-- R142: BUILD (word 0x42000000) completes wherever CHUNK is within its capacity, and makes PKT the data packet of the escaped chunk
p at SEQ: START, L + 35, SEQ + 32, TYPE_DATA, p, the checksum byte of the exact sum, EOL; PKT_LEN is L + 6, within PKT's capacity, and
SUM is that sum. Nothing else changes. -/
def Obligations.BuildAssemblesThePacket : Prop :=
  decodeCmd 0x42000000#32 = .instr .build
    ∧ ∀ s : State, s.cfg.wf = true → s.mem.chunk.length ≤ s.cfg.maxChunk.toNat →
      let p := escaped s.mem.chunk
      let sum := (p.length + 35) + (s.seq.toNat + 32) + s.cfg.typeData.toNat + (p.map BitVec.toNat).sum
      ∃ t, exec .build s = .next t
        ∧ t = { s with mem := { s.mem with pkt := t.mem.pkt }, sum := t.sum }
        ∧ t.mem.pkt =
          [0x01#8, BitVec.ofNat 8 (p.length + 35), BitVec.ofNat 8 (s.seq.toNat + 32), s.cfg.typeData] ++ p
            ++ [BitVec.ofNat 8 (32 + (sum + sum / 64 % 4) % 64), 0x0D#8]
        ∧ t.pktLen.toNat = p.length + 6 ∧ p.length + 6 ≤ 2 * s.cfg.maxChunk.toNat + 6 ∧ t.sum.toNat = sum

/-- R145: after BUILD of a chunk within capacity, the decoded length byte is PKT_LEN − 3 and L + 3, the decoded sequence byte is SEQ,
the checksum byte is checksum of the bytes before it but the first, the packet begins with START and ends with EOL, and neither of
these two occurs anywhere between unless TYPE_DATA equals it. -/
def Obligations.BuiltPacketIsSelfDelimiting : Prop :=
  ∀ s t : State, s.cfg.wf = true → s.mem.chunk.length ≤ s.cfg.maxChunk.toNat → exec .build s = .next t →
    ∃ x y z c,
      let p := escaped s.mem.chunk
      t.mem.pkt = START :: x :: y :: z :: (p ++ [c, EOL])
        ∧ (pvDecode x).toNat = t.pktLen.toNat - 3 ∧ (pvDecode x).toNat = p.length + 3
        ∧ (pvDecode y).toNat = s.seq.toNat
        ∧ c = checksum (x.toNat + y.toNat + z.toNat + byteSum p)
        ∧ z = s.cfg.typeData
        ∧ (∀ e ∈ x :: y :: (p ++ [c]), e ≠ START ∧ e ≠ EOL)

/-- R142, R32: BUILD again with no command between leaves the machine as it was, and right after SEQINC the rebuilt packet of the
same chunk differs from the last one, since its sequence byte does. -/
def Obligations.RebuildGivesTheSamePacket : Prop :=
  ∀ s t : State, exec .build s = .next t →
    exec .build t = .next t
      ∧ ∀ u v, exec .seqinc t = .next u → exec .build u = .next v → v.mem.pkt ≠ t.mem.pkt

/-- R146: BUILD of the empty chunk gives the 6-byte packet with length field 0x23, in every state. -/
def Obligations.EmptyChunkPacket : Prop :=
  ∀ s : State, s.mem.chunk = [] →
    let sum := 35 + (s.seq.toNat + 32) + s.cfg.typeData.toNat
    exec .build s = .next { s with
      mem := { s.mem with pkt := [0x01#8, 0x23#8, BitVec.ofNat 8 (s.seq.toNat + 32), s.cfg.typeData,
        BitVec.ofNat 8 (32 + (sum + sum / 64 % 4) % 64), 0x0D#8] },
      sum := BitVec.ofNat 16 sum }

/-! ### Acknowledgment decoder -/

/-- R167: a frame of any length other than 6 gives CHECKSUM_INVALID (3), whatever its bytes, and SUM and everything else stay. -/
def Obligations.AckchkRejectsOtherLengths : Prop :=
  ∀ s : State, s.mem.rx.length ≠ 6 → exec .ackchk s = .next { s with ackres := 3#3 }

/-- R163, R164: ACKCHK (word 0x52000000) gives the result of the first failing check of length, checksum, sequence and type, and on a
6-byte frame SUM the sum of bytes 1 to 3. Bytes 0 and 5 do not matter (R166). It changes nothing else, and completes in every
state. -/
def Obligations.AckchkDecodesTheFrame : Prop :=
  decodeCmd 0x52000000#32 = .instr .ackchk
    ∧ ∀ s : State,
      exec .ackchk s = .next (match s.mem.rx with
        | [_, f1, f2, f3, f4, _] =>
          let sum := f1.toNat + f2.toNat + f3.toNat
          { s with
            sum := BitVec.ofNat 16 sum,
            ackres :=
              if f4.toNat ≠ 32 + (sum + sum / 64 % 4) % 64 then 3#3
              else if (f2.toNat + 224) % 256 ≠ s.seq.toNat then 4#3
              else if f3 = s.cfg.typeAck then 1#3
              else if f3 = s.cfg.typeNack then 2#3
              else 5#3 }
        | _ => { s with ackres := 3#3 })

/-- R168: on a frame with a valid checksum the result is SEQUENCE_INVALID (4) exactly when the decoded sequence byte, as 8 bits, is
not SEQ; so a sequence byte from 0x00 to 0x1F or from 0xA0 to 0xFF never matches, whatever SEQ is. -/
def Obligations.SequenceByteIsNotReduced : Prop :=
  ∀ (s t : State) (f0 f1 f2 f3 f5 : Byte),
    s.mem.rx = [f0, f1, f2, f3, checksum (f1.toNat + f2.toNat + f3.toNat), f5] → exec .ackchk s = .next t →
      (t.ackres = 4#3 ↔ (pvDecode f2).toNat ≠ s.seq.toNat) ∧ (f2.toNat ≤ 0x1F ∨ 0xA0 ≤ f2.toNat → t.ackres = 4#3)

/-- R81, R162: the acknowledgment frame of the present SEQ, of Table R81's layout, is ACKNOWLEDGED, and the same frame against any
other SEQ is SEQUENCE_INVALID. -/
def Obligations.WellFormedAckIsAcknowledgedOnlyAtItsSeq : Prop :=
  ∀ (s : State) (n : BitVec 7), s.mem.rx = ackFrame s.cfg n →
    ∃ t, exec .ackchk s = .next t ∧ t.ackres = (if n = s.seq then 1#3 else 4#3)

/-! ### Data packet disassembler -/

/-- R182, R183: DATCHK's (word 0x53000000) result is the first failing check of size, START, length, EOL, checksum, type and escapes. A failing
check leaves RSEQ and empties DEC, and SUM is written from the checksum on; OK writes DEC and RSEQ. It completes in every state and
changes nothing else. The byte reads by getD are below the length in every branch that rests on them. -/
def Obligations.DatchkReportsTheFirstFailingCheck : Prop :=
  ∀ s : State,
    decodeCmd 0x53000000#32 = .instr .datchk ∧
    let f := s.mem.rx
    let n := f.length
    let payload := (f.drop 4).take (n - 6)
    let sum := (f.getD 1 0).toNat + (f.getD 2 0).toNat + (f.getD 3 0).toNat + (payload.map BitVec.toNat).sum
    let reject (code : BitVec 3) : State := { s with datres := code, mem := { s.mem with dec := [] } }
    let rejectSummed (code : BitVec 3) : State := { reject code with sum := BitVec.ofNat 16 sum }
    exec .datchk s = .next (
      if n < 6 then reject 2#3
      else if f.getD 0 0 ≠ 0x01#8 then reject 3#3
      else if ((f.getD 1 0).toNat + 224) % 256 ≠ n - 3 then reject 2#3
      else if f.getD (n - 1) 0 ≠ 0x0D#8 then reject 4#3
      else if (f.getD (n - 2) 0).toNat ≠ 32 + (sum + sum / 64 % 4) % 64 then rejectSummed 5#3
      else if f.getD 3 0 ≠ s.cfg.typeData then rejectSummed 6#3
      else
        match unescapePayload payload with
        | none => rejectSummed 7#3
        | some out =>
          { s with
            datres := 1#3, sum := BitVec.ofNat 16 sum, rseq := BitVec.ofNat 8 (((f.getD 2 0).toNat + 224) % 256),
            mem := { s.mem with dec := out } })

/-- R180: a frame checks OK exactly when it has the data packet layout of Table R80 (any sequence byte, R186), a valid checksum, TYPE_DATA
as its type, and a payload that ends on a whole escape pair; then DEC is the decoded payload and RSEQ the decoded sequence field. -/
def Obligations.DatchkAcceptsExactlyDataPackets : Prop :=
  ∀ s t : State, exec .datchk s = .next t →
    let isPacket (q : Byte) (p : List Byte) : Prop :=
      p.length + 3 ≤ 255
        ∧ s.mem.rx = [START, pvEncode (p.length + 3), q, s.cfg.typeData] ++ p
            ++ [checksum ((pvEncode (p.length + 3)).toNat + q.toNat + s.cfg.typeData.toNat + byteSum p), EOL]
    (t.datres = 1#3 → ∃ q p, isPacket q p ∧ unescapePayload p = some t.mem.dec ∧ t.rseq = pvDecode q)
      ∧ (∀ q p out, isPacket q p → unescapePayload p = some out → t.datres = 1#3 ∧ t.mem.dec = out ∧ t.rseq = pvDecode q)

/-- R28, R131: SUM holds the exact sum of the received bytes the last checksum was over, without loss, wherever RX is within its
capacity: after ACKCHK of 6 bytes, and after a DATCHK that got as far as the checksum. -/
def Obligations.ReceivedSumsAreExact : Prop :=
  ∀ s : State, s.cfg.wf = true → s.mem.wf s.cfg = true →
    (∀ t, exec .ackchk s = .next t → s.mem.rx.length = 6 → t.sum.toNat = byteSum (slice s.mem.rx 1 4))
      ∧ (∀ t, exec .datchk s = .next t → (t.datres = 1#3 ∨ 5 ≤ t.datres.toNat) →
        t.sum.toNat = byteSum (slice s.mem.rx 1 (s.mem.rx.length - 2)))

/-- R185: the payload decoder takes only the exact byte 0x23 for a marker: bytes other than 0x23 are copied up to the first marker,
the byte after a marker goes through unescape whatever it is, and a marker with no byte after it fails. -/
def Obligations.PayloadDecoderIsLenient : Prop :=
  ∀ p : List Byte, ESC_CHAR ∉ p →
    unescapePayload p = some p
      ∧ unescapePayload (p ++ [ESC_CHAR]) = none
      ∧ ∀ (e : Byte) (rest : List Byte),
        unescapePayload (p ++ ESC_CHAR :: e :: rest) = (unescapePayload rest).map (fun out => p ++ unescape e :: out)

/-- R187: build the packet of any chunk within capacity, push its bytes into an empty RX and run DATCHK: the result is OK, DEC is the
chunk, RSEQ is SEQ, and SUM is the SUM that BUILD wrote; STATUS, SEQ, CHUNK and PKT are as BUILD left them. -/
def Obligations.BuildThenDatchkRoundTrips : Prop :=
  ∀ s t : State, s.cfg.wf = true → s.mem.chunk.length ≤ s.cfg.maxChunk.toNat → exec .build s = .next t →
    ∃ u, runCommands (.rxclr :: t.mem.pkt.map .rxpush ++ [.datchk]) t = .next u
      ∧ u = { t with
          datres := 1#3, rseq := s.seq.setWidth 8,
          mem := { t.mem with rx := t.mem.pkt, dec := s.mem.chunk } }

/-! ### Faults, reset and the whole machine -/

/-- R74, R262: a step with a word that does not decode records cause·2 + 1 in STATUS if FAULT was 0 and leaves STATUS if it was 1; but for
the word taken from the port nothing else changes, and the machine goes on. The list of waiting words is the model's (log 5). -/
def Obligations.FirstFaultCauseIsKept : Prop :=
  ∀ (s : State) (w : Command) (rest : List PortAction) (c : FaultCause),
    s.program = .command w :: rest → decodeCmd w = .fault c →
      (c = .illegalOpcode ∧ step s = .next { s with program := rest, status := if s.status.toNat % 2 = 0 then 0x03#8 else s.status })
        ∨ (c = .reservedField
          ∧ step s = .next { s with program := rest, status := if s.status.toNat % 2 = 0 then 0x05#8 else s.status })

/-- R263, R291: once STATUS.FAULT is 1, no step but one that takes the RESET input changes STATUS, whatever the host does. -/
def Obligations.FaultIsSticky : Prop :=
  ∀ s t : State, s.status.toNat % 2 = 1 → step s = .next t → (∀ rest, s.program ≠ .reset :: rest) → t.status = s.status

/-- R260, R265: a word faults exactly when it does not decode to a command or its push would overrun its buffer. A faulting word changes
STATUS alone, and only if FAULT was 0; a word that does not fault leaves STATUS. -/
def Obligations.FaultsArePrecise : Prop :=
  ∀ (w : Command) (s : State),
    (∀ c, commandFault w s = some c →
        issue w s = .next { s with status := if s.status.toNat % 2 = 0 then BitVec.ofNat 8 (2 * (causeCode c).toNat + 1) else s.status })
      ∧ (commandFault w s = none → ∃ t, issue w s = .next t ∧ t.status = s.status)

/-- R22, R33, R297: each register and buffer is written only by the commands Table R22 and Table R30 list; no command changes the
build constants, the host, the collaborators or the waiting port actions. -/
def Obligations.RegistersWrittenOnlyAsTabled : Prop :=
  ∀ (i : Instr) (s t : State), exec i s = .next t →
    (t.seq ≠ s.seq → i = .seqrst ∨ i = .seqinc)
      ∧ (t.out ≠ s.out ∨ t.outn ≠ s.outn →
        ∃ b w, i = .esctst b ∨ i = .escenc b ∨ i = .escdec b ∨ i = .tochar b ∨ i = .unchar b ∨ i = .cksum w)
      ∧ (t.sum ≠ s.sum → i = .build ∨ i = .ackchk ∨ i = .datchk)
      ∧ (t.ackres ≠ s.ackres → i = .ackchk)
      ∧ (t.datres ≠ s.datres ∨ t.rseq ≠ s.rseq ∨ t.mem.dec ≠ s.mem.dec → i = .datchk)
      ∧ (t.mem.chunk ≠ s.mem.chunk → i = .txclr ∨ ∃ b, i = .txpush b)
      ∧ (t.mem.pkt ≠ s.mem.pkt → i = .build)
      ∧ (t.mem.rx ≠ s.mem.rx → i = .rxclr ∨ ∃ b, i = .rxpush b)
      ∧ (t.status ≠ s.status → (∃ b, i = .txpush b) ∨ ∃ b, i = .rxpush b)
      ∧ t.cfg = s.cfg ∧ t.host = s.host ∧ t.env = s.env ∧ t.program = s.program ∧ t.readData = s.readData

/-- R271, R262: every command has the same effect whatever STATUS holds, and whatever the host, the collaborators and the port hold:
two states with the same other registers and buffers stay so. -/
def Obligations.CommandsIgnoreStatusAndHost : Prop :=
  ∀ (i : Instr) (s t : State) (v : BitVec 8) (h : Controller) (e : Env) (p : List PortAction) (r : ReadData),
    exec i s = .next t →
      ∃ u, exec i { s with status := v, host := h, env := e, program := p, readData := r } = .next u
        ∧ u = { t with status := u.status, host := h, env := e, program := p, readData := r }

/-- R290: the RESET input gives the BLOCK its reset state from any state, and keeps the build constants; the host keeps what is its
own (log 20, read from R290 by inference). The machine's initial state is a reset state. -/
def Obligations.ResetInputRestoresTheResetState : Prop :=
  (∀ (s : State) (rest : List PortAction), s.program = .reset :: rest →
      step s = .next { s with
        program := rest, status := 0#8, seq := 0#7, out := 0#16, outn := 0#2, sum := 0#16, ackres := 0#3, datres := 0#3,
        rseq := 0#8, mem := { chunk := [], pkt := [], rx := [], dec := [] } })
    ∧ step { State.reset with program := [.reset] } = .next State.reset

/-- R290, R55: at reset the read port gives 0 for registers 0 to 11, and MAX_CHUNK and the block's type literals for 12 to 15. MAX_CHUNK
= 100 is R6's; the type literals are the defaults of R7 (log 1, the model's choice). -/
def Obligations.ResetRegistersReadAsTabled : Prop :=
  (∀ n, n ≤ 11 → State.reset.readReg n = some 0#16)
    ∧ State.reset.readReg 12 = some 100#16
    ∧ (∀ c : Config, (State.resetWith c).readReg 13 = some (c.typeData.setWidth 16)
      ∧ (State.resetWith c).readReg 14 = some (c.typeAck.setWidth 16)
      ∧ (State.resetWith c).readReg 15 = some (c.typeNack.setWidth 16))
    ∧ (∀ b i, State.reset.readBuf b i = none)

/-- R23, R24, R30, R32, R22: the invariant of the BLOCK: legal build constants, buffers within capacity, a legal STATUS, an ACKRES
code in use, OUT and OUTN in agreement and a whole packet or nothing in PKT. Every step keeps it, the host's steps and RESET
included. -/
def Obligations.EveryStepKeepsTheInvariant : Prop :=
  ∀ s t : State, s.Inv → step s = .next t → t.Inv

/-- The invariant holds at reset (R290), and for every legal build. -/
def Obligations.ResetMeetsTheInvariant : Prop :=
  State.reset.Inv ∧ ∀ c : Config, c.wf = true → (State.resetWith c).Inv

/-! ### Read port -/

/-- R55: read_reg(n) gives the register of Table R22 zero-extended for n from 0 to 15 and is refused from 16 on. read_buf gives the
entry at its index, in every buffer, and is refused exactly at or above the length register (R30, R31). Wherever the buffers are
within capacity. -/
def Obligations.ReadPortGivesRegistersAndEntries : Prop :=
  ∀ s : State, s.cfg.wf = true → s.mem.wf s.cfg = true →
    (∀ n, (s.readReg n).isSome = true ↔ n ≤ 15)
      ∧ (s.readReg 0).map BitVec.toNat = some s.status.toNat ∧ (s.readReg 1).map BitVec.toNat = some s.seq.toNat
      ∧ s.readReg 2 = some s.out ∧ (s.readReg 3).map BitVec.toNat = some s.outn.toNat ∧ s.readReg 4 = some s.sum
      ∧ (s.readReg 5).map BitVec.toNat = some s.mem.chunk.length
      ∧ (s.readReg 6).map BitVec.toNat = some s.mem.pkt.length
      ∧ (s.readReg 7).map BitVec.toNat = some s.mem.rx.length
      ∧ (s.readReg 8).map BitVec.toNat = some s.mem.dec.length
      ∧ (s.readReg 9).map BitVec.toNat = some s.ackres.toNat ∧ (s.readReg 10).map BitVec.toNat = some s.datres.toNat
      ∧ (s.readReg 11).map BitVec.toNat = some s.rseq.toNat
      ∧ (s.readReg 12).map BitVec.toNat = some s.cfg.maxChunk.toNat
      ∧ (s.readReg 13).map BitVec.toNat = some s.cfg.typeData.toNat
      ∧ (s.readReg 14).map BitVec.toNat = some s.cfg.typeAck.toNat
      ∧ (s.readReg 15).map BitVec.toNat = some s.cfg.typeNack.toNat
      ∧ (∀ i, s.readBuf .chunk i = s.mem.chunk[i]? ∧ (s.readBuf .chunk i = none ↔ s.chunkLen.toNat ≤ i))
      ∧ (∀ i, s.readBuf .pkt i = s.mem.pkt[i]? ∧ (s.readBuf .pkt i = none ↔ s.pktLen.toNat ≤ i))
      ∧ (∀ i, s.readBuf .rx i = s.mem.rx[i]? ∧ (s.readBuf .rx i = none ↔ s.rxLen.toNat ≤ i))
      ∧ (∀ i, s.readBuf .dec i = s.mem.dec[i]? ∧ (s.readBuf .dec i = none ↔ s.decLen.toNat ≤ i))

/-- R55: a read changes nothing but the answer the host holds; a refused read gives no value and is no fault of the BLOCK (log 6: the
machine goes on after it). -/
def Obligations.ReadsHaveNoSideEffect : Prop :=
  ∀ (s : State) (rest : List PortAction) (n : Nat) (b : BufName),
    (s.program = .readReg n :: rest →
        step s = .next { s with
          program := rest, readData := match s.readReg n with | some v => .value v | none => .refused })
      ∧ (s.program = .readBuf b n :: rest →
        step s = .next { s with
          program := rest, readData := match s.readBuf b n with | some v => .value (v.setWidth 16) | none => .refused })

/-- R63: a byte pushed onto CHUNK or RX is read back at the index that was the length, every other entry of the buffer is as before,
and no other buffer's entry changes. -/
def Obligations.PushedByteReadsBack : Prop :=
  ∀ (s t : State) (v : Byte),
    let pushed (b : BufName) : Prop :=
      t.readBuf b (s.mem.buf b).length = some v
        ∧ (∀ i, i ≠ (s.mem.buf b).length → t.readBuf b i = s.readBuf b i)
        ∧ (∀ n i, n ≠ b → t.readBuf n i = s.readBuf n i)
    (s.mem.chunk.length < s.cfg.maxChunk.toNat → exec (.txpush v) s = .next t → pushed .chunk)
      ∧ (s.mem.rx.length < 2 * s.cfg.maxChunk.toNat + 6 → exec (.rxpush v) s = .next t → pushed .rx)

/-! ### The host's transfer -/

/-- R263, R239: a conforming host never makes the BLOCK fault and never gets stuck: from every state of a conforming transfer the step
answers a next state, in which STATUS is as it was and the transfer conforms. That the step answers in Done and Abort too, that every
call returns, and that the file holds the bytes asked for is the model's reading (logs 12, 10 and 9). -/
def Obligations.ConformingHostNeverFaults : Prop :=
  ∀ s : State, s.Conforming → ∃ t, step s = .next t ∧ t.Conforming ∧ t.status = s.status

/-- R240: a conforming transfer ends, whatever the file, the transport and the peer answer. That each call answers, and that the file is
a list of bytes, is the model's reading (logs 9 and 10). -/
def Obligations.ConformingTransferEnds : Prop :=
  ∀ s : State, s.Conforming → ∃ n t, Sys2Proof.core.run n s = .next t ∧ t.runOver = true

/-- R203, R230: in a conforming transfer SEQ changes only at the transfer's start, to 0, and at Advance's SEQINC, by 1 modulo 128. -/
def Obligations.HostAdvancesSeqOnlyInAdvance : Prop :=
  ∀ s t : State, s.Conforming → step s = .next t →
    t.seq = (if s.host.hpc = .idleSeqrst then 0#7 else if s.host.hpc = .advSeqinc then s.seq + 1#7 else s.seq)

/-- R230: from Chunking on, bytes_sent and remaining_bytes always add up to the same total, and FULLY_SENT leaves nothing
remaining. -/
def Obligations.EveryByteIsAccountedFor : Prop :=
  ∀ s t : State, s.Conforming → step s = .next t → s.host.hpc ≠ .idleInit →
    t.host.bytesSent + t.host.remaining = s.host.bytesSent + s.host.remaining
      ∧ (t.host.outcome = some .fullySent → s.host.outcome = some .fullySent ∨ t.host.remaining = 0)

/-- R235: with transport writes that succeed and four reads that each bring a retryable answer, the host sends the packet in flight
exactly four times and aborts, reporting SEQ and bytes_sent; SEQ and PKT have not changed. The placed answers and the record of the wire
are the model's (logs 8 and 16). -/
def Obligations.RetryCapEndsTheTransfer : Prop :=
  ∀ (s : State) (r1 r2 r3 r4 : List Byte) (rs : List (List Byte)) (n1 n2 n3 n4 : Nat) (ws : List WriteResult),
    s.Conforming → s.host.hpc = .sendWrite → s.host.retryCount = 0 → s.env.reads = r1 :: r2 :: r3 :: r4 :: rs →
    s.env.writes = .success n1 :: .success n2 :: .success n3 :: .success n4 :: ws →
    (∀ r ∈ [r1, r2, r3, r4], retryable (ackCode (decodeAck s.cfg (r.take 6) s.seqByte)) = true) →
    ∃ n t, Sys2Proof.core.run n s = .next t ∧ t.host.hpc = .abort ∧ t.host.retryCount = 4 ∧ t.seq = s.seq
      ∧ t.mem.pkt = s.mem.pkt ∧ t.env.wire = s.env.wire ++ List.replicate 4 s.mem.pkt
      ∧ t.host.outcome = some (.abortedRetry s.seq s.host.bytesSent)

/-- R236: a file of F bytes, with every write a success of any count and every packet acknowledged at the first attempt, is sent as its
packets of MAX_CHUNK bytes (the last one shorter) at sequence numbers 0, 1, 2, ... mod 128, then one ETX, and the outcome is
FULLY_SENT. The placed answers and the record of the wire are the model's (logs 8 and 16). -/
def Obligations.WholeFileIsSentInOrder : Prop :=
  ∀ (s : State) (file : List Byte) (os : List (Option (List Byte))) (rs : List (List Byte)) (counts : List Nat)
    (ws : List WriteResult),
    let k := s.cfg.maxChunk.toNat
    let n := (file.length + k - 1) / k
    s.cfg.wf = true → s.program = [] → s.host.hpc = .idleSeqrst → s.env.opens = some file :: os →
    s.env.reads = ackFrames s.cfg n 0#7 ++ rs → counts.length = n + 1 → s.env.writes = counts.map .success ++ ws →
    ∃ m t, Sys2Proof.core.run m s = .next t ∧ t.host.hpc = .done ∧ t.host.outcome = some .fullySent
      ∧ t.host.bytesSent = file.length ∧ t.seq = BitVec.ofNat 7 n ∧ t.status = s.status
      ∧ t.env.wire = s.env.wire ++ filePackets k s.cfg.typeData file.length 0#7 file ++ [[ETX]]

/-- R224, C6: a zero-byte file sends no packet: five steps from the start the ETX is written and the outcome is FULLY_SENT, the whole
BLOCK as it was but for SEQ 0. The number of steps is the model's granularity (log 7), the placed answers (log 8) and the record of
the wire (log 16) its own. -/
def Obligations.ZeroByteFileSendsOnlyEtx : Prop :=
  ∀ (s : State) (os : List (Option (List Byte))) (k : Nat) (ws : List WriteResult),
    s.program = [] → s.host.hpc = .idleSeqrst → s.env.opens = some [] :: os → s.env.writes = .success k :: ws →
    ∃ t, Sys2Proof.core.run 5 s = .next t ∧ t.host.hpc = .done ∧ t.host.outcome = some .fullySent
      ∧ t.env.wire = s.env.wire ++ [[0x03#8]] ∧ t = { s with seq := 0#7, host := t.host, env := t.env }

/-- R226, R232, R234, D31: a transport write that returns an error, of a packet or of the ETX, ends the transfer at once in Abort with
outcome ABORTED_TRANSPORT and bytes_sent, and changes nothing of the BLOCK; a success with any count does not abort. That the write and
the state it leads to are one step is the model's granularity (log 7), and the placed answer is its own (log 8). -/
def Obligations.WriteErrorAbortsTheTransfer : Prop :=
  ∀ (s : State) (a : WriteResult) (ws : List WriteResult),
    s.program = [] → (s.host.hpc = .sendWrite ∨ s.host.hpc = .completeWrite) → s.env.writes = a :: ws →
    ∃ t, step s = .next t
      ∧ (a = .error → t.host.hpc = .abort ∧ t.host.outcome = some (.abortedTransport s.host.bytesSent))
      ∧ (a ≠ .error → t.host.hpc = if s.host.hpc = .sendWrite then .recvDelay else .done)
      ∧ t = { s with host := t.host, env := t.env }

/-- R228, R231: Receive's dispatch goes to Advance on ACKNOWLEDGED and to Retry on the four retryable results; Retry counts the
attempt, and at 4 aborts with ABORTED_RETRY, otherwise resends the same PKT with no command issued. The number of steps and the count of
anomalies are the model's choice (logs 7 and 15). -/
def Obligations.RetryableResultsAreCountedAndResent : Prop :=
  ∀ s : State, s.Conforming → s.host.hpc = .recvDispatch →
    ∃ t, step s = .next t ∧ t = { s with host := t.host }
      ∧ (s.ackres = 1#3 → t.host.hpc = .advAccount)
      ∧ (s.ackres ≠ 1#3 →
        ∃ u, Sys2Proof.core.run 4 s = .next u ∧ u = { s with host := u.host } ∧ u.host.retryCount = s.host.retryCount + 1
          ∧ u.host.anomalies = (if s.ackres = 5#3 then s.host.anomalies + 1 else s.host.anomalies)
          ∧ (s.host.retryCount + 1 < 4 → u.host.hpc = .sendWrite)
          ∧ (s.host.retryCount + 1 = 4 → u.host.hpc = .abort
            ∧ u.host.outcome = some (.abortedRetry s.seq s.host.bytesSent)))

/-- R233: Done and Abort are terminal: the host takes no further step, and nothing changes. That step then answers the same state is the
model's reading (log 12). -/
def Obligations.TerminalHostTakesNoStep : Prop :=
  ∀ (s : State) (n : Nat), s.program = [] → (s.host.hpc = .done ∨ s.host.hpc = .abort) → Sys2Proof.core.run n s = .next s
end

