-- ==== Sys2Proof/Laws/Decode.lean ====
section
/-! SUPPORT. Command words as numbers: the fields of a word and the word of a command in division and remainder. -/

namespace Sys2Proof

theorem rawOf_op_toNat (w : Command) : (rawOf w).op.toNat = w.toNat / 2 ^ 24 := by
  have := w.isLt
  simp [rawOf, Nat.shiftRight_eq_div_pow]
  omega

theorem rawOf_rsv_toNat (w : Command) : (rawOf w).rsv.toNat = w.toNat / 2 ^ 16 % 256 := by
  simp [rawOf, Nat.shiftRight_eq_div_pow]

theorem rawOf_imm_toNat (w : Command) : (rawOf w).imm.toNat = w.toNat % 2 ^ 16 := by
  simp [rawOf]

theorem immByte_toNat (imm : Word16) : (immByte imm).toNat = imm.toNat % 256 := by
  simp [immByte]

/-- The high byte of IMM is zero exactly for an operand below 256 (R72). -/
theorem imm_high_zero (imm : Word16) : imm.extractLsb' 8 8 = 0#8 ↔ imm.toNat / 256 = 0 := by
  have := imm.isLt
  rw [← BitVec.toNat_inj]
  simp [Nat.shiftRight_eq_div_pow]
  omega

/-- OP << 24 | operand as a sum (R78). -/
theorem encode_toNat (i : Instr) : (encode i).toNat = (opcodeOf i).toNat * 2 ^ 24 + (immOf i).toNat := by
  have h1 := (opcodeOf i).isLt
  have h2 := (immOf i).isLt
  have h3 : (immOf i).toNat < 2 ^ 24 := by omega
  rw [encode, BitVec.toNat_or, BitVec.toNat_shiftLeft, BitVec.toNat_setWidth, BitVec.toNat_setWidth,
    Nat.mod_eq_of_lt (show (opcodeOf i).toNat < 2 ^ 32 by omega), Nat.mod_eq_of_lt (show (immOf i).toNat < 2 ^ 32 by omega),
    Nat.mod_eq_of_lt (by rw [Nat.shiftLeft_eq]; omega), ← Nat.shiftLeft_add_eq_or_of_lt h3, Nat.shiftLeft_eq]

end Sys2Proof
end

