-- ==== Sys2Proof/Laws/State.lean ====
section
/-! SUPPORT. One lemma per field per update of State, so that no proof unfolds a record update; the RESET input's fields. -/

namespace Sys2Proof.Machine

/-! ### setStatus -/

@[simp] theorem State.setStatus_status (s : State) (v : BitVec 8) : (s.setStatus v).status = v := rfl
@[simp] theorem State.setStatus_seq (s : State) (v : BitVec 8) : (s.setStatus v).seq = s.seq := rfl
@[simp] theorem State.setStatus_out (s : State) (v : BitVec 8) : (s.setStatus v).out = s.out := rfl
@[simp] theorem State.setStatus_outn (s : State) (v : BitVec 8) : (s.setStatus v).outn = s.outn := rfl
@[simp] theorem State.setStatus_sum (s : State) (v : BitVec 8) : (s.setStatus v).sum = s.sum := rfl
@[simp] theorem State.setStatus_ackres (s : State) (v : BitVec 8) : (s.setStatus v).ackres = s.ackres := rfl
@[simp] theorem State.setStatus_datres (s : State) (v : BitVec 8) : (s.setStatus v).datres = s.datres := rfl
@[simp] theorem State.setStatus_rseq (s : State) (v : BitVec 8) : (s.setStatus v).rseq = s.rseq := rfl
@[simp] theorem State.setStatus_cfg (s : State) (v : BitVec 8) : (s.setStatus v).cfg = s.cfg := rfl
@[simp] theorem State.setStatus_mem (s : State) (v : BitVec 8) : (s.setStatus v).mem = s.mem := rfl
@[simp] theorem State.setStatus_host (s : State) (v : BitVec 8) : (s.setStatus v).host = s.host := rfl
@[simp] theorem State.setStatus_env (s : State) (v : BitVec 8) : (s.setStatus v).env = s.env := rfl
@[simp] theorem State.setStatus_program (s : State) (v : BitVec 8) : (s.setStatus v).program = s.program := rfl
@[simp] theorem State.setStatus_readData (s : State) (v : BitVec 8) : (s.setStatus v).readData = s.readData := rfl

/-! ### setSeq -/

@[simp] theorem State.setSeq_status (s : State) (v : BitVec 7) : (s.setSeq v).status = s.status := rfl
@[simp] theorem State.setSeq_seq (s : State) (v : BitVec 7) : (s.setSeq v).seq = v := rfl
@[simp] theorem State.setSeq_out (s : State) (v : BitVec 7) : (s.setSeq v).out = s.out := rfl
@[simp] theorem State.setSeq_outn (s : State) (v : BitVec 7) : (s.setSeq v).outn = s.outn := rfl
@[simp] theorem State.setSeq_sum (s : State) (v : BitVec 7) : (s.setSeq v).sum = s.sum := rfl
@[simp] theorem State.setSeq_ackres (s : State) (v : BitVec 7) : (s.setSeq v).ackres = s.ackres := rfl
@[simp] theorem State.setSeq_datres (s : State) (v : BitVec 7) : (s.setSeq v).datres = s.datres := rfl
@[simp] theorem State.setSeq_rseq (s : State) (v : BitVec 7) : (s.setSeq v).rseq = s.rseq := rfl
@[simp] theorem State.setSeq_cfg (s : State) (v : BitVec 7) : (s.setSeq v).cfg = s.cfg := rfl
@[simp] theorem State.setSeq_mem (s : State) (v : BitVec 7) : (s.setSeq v).mem = s.mem := rfl
@[simp] theorem State.setSeq_host (s : State) (v : BitVec 7) : (s.setSeq v).host = s.host := rfl
@[simp] theorem State.setSeq_env (s : State) (v : BitVec 7) : (s.setSeq v).env = s.env := rfl
@[simp] theorem State.setSeq_program (s : State) (v : BitVec 7) : (s.setSeq v).program = s.program := rfl
@[simp] theorem State.setSeq_readData (s : State) (v : BitVec 7) : (s.setSeq v).readData = s.readData := rfl

/-! ### setOut -/

@[simp] theorem State.setOut_status (s : State) (v : Word16) (n : BitVec 2) : (s.setOut v n).status = s.status := rfl
@[simp] theorem State.setOut_seq (s : State) (v : Word16) (n : BitVec 2) : (s.setOut v n).seq = s.seq := rfl
@[simp] theorem State.setOut_out (s : State) (v : Word16) (n : BitVec 2) : (s.setOut v n).out = v := rfl
@[simp] theorem State.setOut_outn (s : State) (v : Word16) (n : BitVec 2) : (s.setOut v n).outn = n := rfl
@[simp] theorem State.setOut_sum (s : State) (v : Word16) (n : BitVec 2) : (s.setOut v n).sum = s.sum := rfl
@[simp] theorem State.setOut_ackres (s : State) (v : Word16) (n : BitVec 2) : (s.setOut v n).ackres = s.ackres := rfl
@[simp] theorem State.setOut_datres (s : State) (v : Word16) (n : BitVec 2) : (s.setOut v n).datres = s.datres := rfl
@[simp] theorem State.setOut_rseq (s : State) (v : Word16) (n : BitVec 2) : (s.setOut v n).rseq = s.rseq := rfl
@[simp] theorem State.setOut_cfg (s : State) (v : Word16) (n : BitVec 2) : (s.setOut v n).cfg = s.cfg := rfl
@[simp] theorem State.setOut_mem (s : State) (v : Word16) (n : BitVec 2) : (s.setOut v n).mem = s.mem := rfl
@[simp] theorem State.setOut_host (s : State) (v : Word16) (n : BitVec 2) : (s.setOut v n).host = s.host := rfl
@[simp] theorem State.setOut_env (s : State) (v : Word16) (n : BitVec 2) : (s.setOut v n).env = s.env := rfl
@[simp] theorem State.setOut_program (s : State) (v : Word16) (n : BitVec 2) : (s.setOut v n).program = s.program := rfl
@[simp] theorem State.setOut_readData (s : State) (v : Word16) (n : BitVec 2) : (s.setOut v n).readData = s.readData := rfl

/-! ### setSum -/

@[simp] theorem State.setSum_status (s : State) (v : Nat) : (s.setSum v).status = s.status := rfl
@[simp] theorem State.setSum_seq (s : State) (v : Nat) : (s.setSum v).seq = s.seq := rfl
@[simp] theorem State.setSum_out (s : State) (v : Nat) : (s.setSum v).out = s.out := rfl
@[simp] theorem State.setSum_outn (s : State) (v : Nat) : (s.setSum v).outn = s.outn := rfl
@[simp] theorem State.setSum_sum (s : State) (v : Nat) : (s.setSum v).sum = BitVec.ofNat 16 v := rfl
@[simp] theorem State.setSum_ackres (s : State) (v : Nat) : (s.setSum v).ackres = s.ackres := rfl
@[simp] theorem State.setSum_datres (s : State) (v : Nat) : (s.setSum v).datres = s.datres := rfl
@[simp] theorem State.setSum_rseq (s : State) (v : Nat) : (s.setSum v).rseq = s.rseq := rfl
@[simp] theorem State.setSum_cfg (s : State) (v : Nat) : (s.setSum v).cfg = s.cfg := rfl
@[simp] theorem State.setSum_mem (s : State) (v : Nat) : (s.setSum v).mem = s.mem := rfl
@[simp] theorem State.setSum_host (s : State) (v : Nat) : (s.setSum v).host = s.host := rfl
@[simp] theorem State.setSum_env (s : State) (v : Nat) : (s.setSum v).env = s.env := rfl
@[simp] theorem State.setSum_program (s : State) (v : Nat) : (s.setSum v).program = s.program := rfl
@[simp] theorem State.setSum_readData (s : State) (v : Nat) : (s.setSum v).readData = s.readData := rfl

/-! ### setAckres -/

@[simp] theorem State.setAckres_status (s : State) (v : BitVec 3) : (s.setAckres v).status = s.status := rfl
@[simp] theorem State.setAckres_seq (s : State) (v : BitVec 3) : (s.setAckres v).seq = s.seq := rfl
@[simp] theorem State.setAckres_out (s : State) (v : BitVec 3) : (s.setAckres v).out = s.out := rfl
@[simp] theorem State.setAckres_outn (s : State) (v : BitVec 3) : (s.setAckres v).outn = s.outn := rfl
@[simp] theorem State.setAckres_sum (s : State) (v : BitVec 3) : (s.setAckres v).sum = s.sum := rfl
@[simp] theorem State.setAckres_ackres (s : State) (v : BitVec 3) : (s.setAckres v).ackres = v := rfl
@[simp] theorem State.setAckres_datres (s : State) (v : BitVec 3) : (s.setAckres v).datres = s.datres := rfl
@[simp] theorem State.setAckres_rseq (s : State) (v : BitVec 3) : (s.setAckres v).rseq = s.rseq := rfl
@[simp] theorem State.setAckres_cfg (s : State) (v : BitVec 3) : (s.setAckres v).cfg = s.cfg := rfl
@[simp] theorem State.setAckres_mem (s : State) (v : BitVec 3) : (s.setAckres v).mem = s.mem := rfl
@[simp] theorem State.setAckres_host (s : State) (v : BitVec 3) : (s.setAckres v).host = s.host := rfl
@[simp] theorem State.setAckres_env (s : State) (v : BitVec 3) : (s.setAckres v).env = s.env := rfl
@[simp] theorem State.setAckres_program (s : State) (v : BitVec 3) : (s.setAckres v).program = s.program := rfl
@[simp] theorem State.setAckres_readData (s : State) (v : BitVec 3) : (s.setAckres v).readData = s.readData := rfl

/-! ### setDatres -/

@[simp] theorem State.setDatres_status (s : State) (v : BitVec 3) : (s.setDatres v).status = s.status := rfl
@[simp] theorem State.setDatres_seq (s : State) (v : BitVec 3) : (s.setDatres v).seq = s.seq := rfl
@[simp] theorem State.setDatres_out (s : State) (v : BitVec 3) : (s.setDatres v).out = s.out := rfl
@[simp] theorem State.setDatres_outn (s : State) (v : BitVec 3) : (s.setDatres v).outn = s.outn := rfl
@[simp] theorem State.setDatres_sum (s : State) (v : BitVec 3) : (s.setDatres v).sum = s.sum := rfl
@[simp] theorem State.setDatres_ackres (s : State) (v : BitVec 3) : (s.setDatres v).ackres = s.ackres := rfl
@[simp] theorem State.setDatres_datres (s : State) (v : BitVec 3) : (s.setDatres v).datres = v := rfl
@[simp] theorem State.setDatres_rseq (s : State) (v : BitVec 3) : (s.setDatres v).rseq = s.rseq := rfl
@[simp] theorem State.setDatres_cfg (s : State) (v : BitVec 3) : (s.setDatres v).cfg = s.cfg := rfl
@[simp] theorem State.setDatres_mem (s : State) (v : BitVec 3) : (s.setDatres v).mem = s.mem := rfl
@[simp] theorem State.setDatres_host (s : State) (v : BitVec 3) : (s.setDatres v).host = s.host := rfl
@[simp] theorem State.setDatres_env (s : State) (v : BitVec 3) : (s.setDatres v).env = s.env := rfl
@[simp] theorem State.setDatres_program (s : State) (v : BitVec 3) : (s.setDatres v).program = s.program := rfl
@[simp] theorem State.setDatres_readData (s : State) (v : BitVec 3) : (s.setDatres v).readData = s.readData := rfl

/-! ### setRseq -/

@[simp] theorem State.setRseq_status (s : State) (v : Byte) : (s.setRseq v).status = s.status := rfl
@[simp] theorem State.setRseq_seq (s : State) (v : Byte) : (s.setRseq v).seq = s.seq := rfl
@[simp] theorem State.setRseq_out (s : State) (v : Byte) : (s.setRseq v).out = s.out := rfl
@[simp] theorem State.setRseq_outn (s : State) (v : Byte) : (s.setRseq v).outn = s.outn := rfl
@[simp] theorem State.setRseq_sum (s : State) (v : Byte) : (s.setRseq v).sum = s.sum := rfl
@[simp] theorem State.setRseq_ackres (s : State) (v : Byte) : (s.setRseq v).ackres = s.ackres := rfl
@[simp] theorem State.setRseq_datres (s : State) (v : Byte) : (s.setRseq v).datres = s.datres := rfl
@[simp] theorem State.setRseq_rseq (s : State) (v : Byte) : (s.setRseq v).rseq = v := rfl
@[simp] theorem State.setRseq_cfg (s : State) (v : Byte) : (s.setRseq v).cfg = s.cfg := rfl
@[simp] theorem State.setRseq_mem (s : State) (v : Byte) : (s.setRseq v).mem = s.mem := rfl
@[simp] theorem State.setRseq_host (s : State) (v : Byte) : (s.setRseq v).host = s.host := rfl
@[simp] theorem State.setRseq_env (s : State) (v : Byte) : (s.setRseq v).env = s.env := rfl
@[simp] theorem State.setRseq_program (s : State) (v : Byte) : (s.setRseq v).program = s.program := rfl
@[simp] theorem State.setRseq_readData (s : State) (v : Byte) : (s.setRseq v).readData = s.readData := rfl

/-! ### setMem -/

@[simp] theorem State.setMem_status (s : State) (v : Memory) : (s.setMem v).status = s.status := rfl
@[simp] theorem State.setMem_seq (s : State) (v : Memory) : (s.setMem v).seq = s.seq := rfl
@[simp] theorem State.setMem_out (s : State) (v : Memory) : (s.setMem v).out = s.out := rfl
@[simp] theorem State.setMem_outn (s : State) (v : Memory) : (s.setMem v).outn = s.outn := rfl
@[simp] theorem State.setMem_sum (s : State) (v : Memory) : (s.setMem v).sum = s.sum := rfl
@[simp] theorem State.setMem_ackres (s : State) (v : Memory) : (s.setMem v).ackres = s.ackres := rfl
@[simp] theorem State.setMem_datres (s : State) (v : Memory) : (s.setMem v).datres = s.datres := rfl
@[simp] theorem State.setMem_rseq (s : State) (v : Memory) : (s.setMem v).rseq = s.rseq := rfl
@[simp] theorem State.setMem_cfg (s : State) (v : Memory) : (s.setMem v).cfg = s.cfg := rfl
@[simp] theorem State.setMem_mem (s : State) (v : Memory) : (s.setMem v).mem = v := rfl
@[simp] theorem State.setMem_host (s : State) (v : Memory) : (s.setMem v).host = s.host := rfl
@[simp] theorem State.setMem_env (s : State) (v : Memory) : (s.setMem v).env = s.env := rfl
@[simp] theorem State.setMem_program (s : State) (v : Memory) : (s.setMem v).program = s.program := rfl
@[simp] theorem State.setMem_readData (s : State) (v : Memory) : (s.setMem v).readData = s.readData := rfl

/-! ### setHost -/

@[simp] theorem State.setHost_status (s : State) (v : Controller) : (s.setHost v).status = s.status := rfl
@[simp] theorem State.setHost_seq (s : State) (v : Controller) : (s.setHost v).seq = s.seq := rfl
@[simp] theorem State.setHost_out (s : State) (v : Controller) : (s.setHost v).out = s.out := rfl
@[simp] theorem State.setHost_outn (s : State) (v : Controller) : (s.setHost v).outn = s.outn := rfl
@[simp] theorem State.setHost_sum (s : State) (v : Controller) : (s.setHost v).sum = s.sum := rfl
@[simp] theorem State.setHost_ackres (s : State) (v : Controller) : (s.setHost v).ackres = s.ackres := rfl
@[simp] theorem State.setHost_datres (s : State) (v : Controller) : (s.setHost v).datres = s.datres := rfl
@[simp] theorem State.setHost_rseq (s : State) (v : Controller) : (s.setHost v).rseq = s.rseq := rfl
@[simp] theorem State.setHost_cfg (s : State) (v : Controller) : (s.setHost v).cfg = s.cfg := rfl
@[simp] theorem State.setHost_mem (s : State) (v : Controller) : (s.setHost v).mem = s.mem := rfl
@[simp] theorem State.setHost_host (s : State) (v : Controller) : (s.setHost v).host = v := rfl
@[simp] theorem State.setHost_env (s : State) (v : Controller) : (s.setHost v).env = s.env := rfl
@[simp] theorem State.setHost_program (s : State) (v : Controller) : (s.setHost v).program = s.program := rfl
@[simp] theorem State.setHost_readData (s : State) (v : Controller) : (s.setHost v).readData = s.readData := rfl

/-! ### setEnv -/

@[simp] theorem State.setEnv_status (s : State) (v : Env) : (s.setEnv v).status = s.status := rfl
@[simp] theorem State.setEnv_seq (s : State) (v : Env) : (s.setEnv v).seq = s.seq := rfl
@[simp] theorem State.setEnv_out (s : State) (v : Env) : (s.setEnv v).out = s.out := rfl
@[simp] theorem State.setEnv_outn (s : State) (v : Env) : (s.setEnv v).outn = s.outn := rfl
@[simp] theorem State.setEnv_sum (s : State) (v : Env) : (s.setEnv v).sum = s.sum := rfl
@[simp] theorem State.setEnv_ackres (s : State) (v : Env) : (s.setEnv v).ackres = s.ackres := rfl
@[simp] theorem State.setEnv_datres (s : State) (v : Env) : (s.setEnv v).datres = s.datres := rfl
@[simp] theorem State.setEnv_rseq (s : State) (v : Env) : (s.setEnv v).rseq = s.rseq := rfl
@[simp] theorem State.setEnv_cfg (s : State) (v : Env) : (s.setEnv v).cfg = s.cfg := rfl
@[simp] theorem State.setEnv_mem (s : State) (v : Env) : (s.setEnv v).mem = s.mem := rfl
@[simp] theorem State.setEnv_host (s : State) (v : Env) : (s.setEnv v).host = s.host := rfl
@[simp] theorem State.setEnv_env (s : State) (v : Env) : (s.setEnv v).env = v := rfl
@[simp] theorem State.setEnv_program (s : State) (v : Env) : (s.setEnv v).program = s.program := rfl
@[simp] theorem State.setEnv_readData (s : State) (v : Env) : (s.setEnv v).readData = s.readData := rfl

/-! ### setProgram -/

@[simp] theorem State.setProgram_status (s : State) (v : List PortAction) : (s.setProgram v).status = s.status := rfl
@[simp] theorem State.setProgram_seq (s : State) (v : List PortAction) : (s.setProgram v).seq = s.seq := rfl
@[simp] theorem State.setProgram_out (s : State) (v : List PortAction) : (s.setProgram v).out = s.out := rfl
@[simp] theorem State.setProgram_outn (s : State) (v : List PortAction) : (s.setProgram v).outn = s.outn := rfl
@[simp] theorem State.setProgram_sum (s : State) (v : List PortAction) : (s.setProgram v).sum = s.sum := rfl
@[simp] theorem State.setProgram_ackres (s : State) (v : List PortAction) : (s.setProgram v).ackres = s.ackres := rfl
@[simp] theorem State.setProgram_datres (s : State) (v : List PortAction) : (s.setProgram v).datres = s.datres := rfl
@[simp] theorem State.setProgram_rseq (s : State) (v : List PortAction) : (s.setProgram v).rseq = s.rseq := rfl
@[simp] theorem State.setProgram_cfg (s : State) (v : List PortAction) : (s.setProgram v).cfg = s.cfg := rfl
@[simp] theorem State.setProgram_mem (s : State) (v : List PortAction) : (s.setProgram v).mem = s.mem := rfl
@[simp] theorem State.setProgram_host (s : State) (v : List PortAction) : (s.setProgram v).host = s.host := rfl
@[simp] theorem State.setProgram_env (s : State) (v : List PortAction) : (s.setProgram v).env = s.env := rfl
@[simp] theorem State.setProgram_program (s : State) (v : List PortAction) : (s.setProgram v).program = v := rfl
@[simp] theorem State.setProgram_readData (s : State) (v : List PortAction) : (s.setProgram v).readData = s.readData := rfl

/-! ### setReadData -/

@[simp] theorem State.setReadData_status (s : State) (v : ReadData) : (s.setReadData v).status = s.status := rfl
@[simp] theorem State.setReadData_seq (s : State) (v : ReadData) : (s.setReadData v).seq = s.seq := rfl
@[simp] theorem State.setReadData_out (s : State) (v : ReadData) : (s.setReadData v).out = s.out := rfl
@[simp] theorem State.setReadData_outn (s : State) (v : ReadData) : (s.setReadData v).outn = s.outn := rfl
@[simp] theorem State.setReadData_sum (s : State) (v : ReadData) : (s.setReadData v).sum = s.sum := rfl
@[simp] theorem State.setReadData_ackres (s : State) (v : ReadData) : (s.setReadData v).ackres = s.ackres := rfl
@[simp] theorem State.setReadData_datres (s : State) (v : ReadData) : (s.setReadData v).datres = s.datres := rfl
@[simp] theorem State.setReadData_rseq (s : State) (v : ReadData) : (s.setReadData v).rseq = s.rseq := rfl
@[simp] theorem State.setReadData_cfg (s : State) (v : ReadData) : (s.setReadData v).cfg = s.cfg := rfl
@[simp] theorem State.setReadData_mem (s : State) (v : ReadData) : (s.setReadData v).mem = s.mem := rfl
@[simp] theorem State.setReadData_host (s : State) (v : ReadData) : (s.setReadData v).host = s.host := rfl
@[simp] theorem State.setReadData_env (s : State) (v : ReadData) : (s.setReadData v).env = s.env := rfl
@[simp] theorem State.setReadData_program (s : State) (v : ReadData) : (s.setReadData v).program = s.program := rfl
@[simp] theorem State.setReadData_readData (s : State) (v : ReadData) : (s.setReadData v).readData = v := rfl

/-! ### goto and blockReset -/

@[simp] theorem State.goto_status (s : State) (p : Hpc) : (s.goto p).status = s.status := rfl
@[simp] theorem State.goto_seq (s : State) (p : Hpc) : (s.goto p).seq = s.seq := rfl
@[simp] theorem State.goto_out (s : State) (p : Hpc) : (s.goto p).out = s.out := rfl
@[simp] theorem State.goto_outn (s : State) (p : Hpc) : (s.goto p).outn = s.outn := rfl
@[simp] theorem State.goto_sum (s : State) (p : Hpc) : (s.goto p).sum = s.sum := rfl
@[simp] theorem State.goto_ackres (s : State) (p : Hpc) : (s.goto p).ackres = s.ackres := rfl
@[simp] theorem State.goto_datres (s : State) (p : Hpc) : (s.goto p).datres = s.datres := rfl
@[simp] theorem State.goto_rseq (s : State) (p : Hpc) : (s.goto p).rseq = s.rseq := rfl
@[simp] theorem State.goto_cfg (s : State) (p : Hpc) : (s.goto p).cfg = s.cfg := rfl
@[simp] theorem State.goto_mem (s : State) (p : Hpc) : (s.goto p).mem = s.mem := rfl
@[simp] theorem State.goto_host (s : State) (p : Hpc) : (s.goto p).host = { s.host with hpc := p } := rfl
@[simp] theorem State.goto_env (s : State) (p : Hpc) : (s.goto p).env = s.env := rfl
@[simp] theorem State.goto_program (s : State) (p : Hpc) : (s.goto p).program = s.program := rfl
@[simp] theorem State.goto_readData (s : State) (p : Hpc) : (s.goto p).readData = s.readData := rfl

@[simp] theorem State.blockReset_status (s : State) : s.blockReset.status = 0#8 := rfl
@[simp] theorem State.blockReset_seq (s : State) : s.blockReset.seq = 0#7 := rfl
@[simp] theorem State.blockReset_out (s : State) : s.blockReset.out = 0#16 := rfl
@[simp] theorem State.blockReset_outn (s : State) : s.blockReset.outn = 0#2 := rfl
@[simp] theorem State.blockReset_sum (s : State) : s.blockReset.sum = 0#16 := rfl
@[simp] theorem State.blockReset_ackres (s : State) : s.blockReset.ackres = 0#3 := rfl
@[simp] theorem State.blockReset_datres (s : State) : s.blockReset.datres = 0#3 := rfl
@[simp] theorem State.blockReset_rseq (s : State) : s.blockReset.rseq = 0#8 := rfl
@[simp] theorem State.blockReset_cfg (s : State) : s.blockReset.cfg = s.cfg := rfl
@[simp] theorem State.blockReset_mem (s : State) : s.blockReset.mem = Memory.empty := rfl
@[simp] theorem State.blockReset_host (s : State) : s.blockReset.host = s.host := rfl
@[simp] theorem State.blockReset_env (s : State) : s.blockReset.env = s.env := rfl
@[simp] theorem State.blockReset_program (s : State) : s.blockReset.program = s.program := rfl
@[simp] theorem State.blockReset_readData (s : State) : s.blockReset.readData = s.readData := rfl

end Sys2Proof.Machine
end

