-- ==== Sys2Proof/Laws/Ops.lean ====
section
/-! SUPPORT. What each shared operation can do, said once: recording a fault, the buffer writes and reads, the sums. -/

namespace Sys2Proof.Machine

/-! ### Recording a fault (R262) -/

/-- FAULT is the low bit of STATUS (R23). -/
theorem faultFlag_eq (s : State) : s.faultFlag = decide (s.status.toNat % 2 = 1) := by
  simp [State.faultFlag, BitVec.getLsbD, Nat.testBit_zero]

/-- Recording a fault gives a state that differs in STATUS alone. -/
theorem recordFault_eq (s : State) (c : FaultCause) :
    s.recordFault c = s.setStatus (if s.status.toNat % 2 = 0 then statusWord c else s.status) := by
  unfold State.recordFault
  rw [faultFlag_eq]
  rcases Nat.mod_two_eq_zero_or_one s.status.toNat with h | h <;> simp [h, State.setStatus]

@[simp] theorem recordFault_seq (s : State) (c : FaultCause) : (s.recordFault c).seq = s.seq := by simp [recordFault_eq]
@[simp] theorem recordFault_cfg (s : State) (c : FaultCause) : (s.recordFault c).cfg = s.cfg := by simp [recordFault_eq]
@[simp] theorem recordFault_mem (s : State) (c : FaultCause) : (s.recordFault c).mem = s.mem := by simp [recordFault_eq]
@[simp] theorem recordFault_host (s : State) (c : FaultCause) : (s.recordFault c).host = s.host := by simp [recordFault_eq]
@[simp] theorem recordFault_env (s : State) (c : FaultCause) : (s.recordFault c).env = s.env := by simp [recordFault_eq]
@[simp] theorem recordFault_program (s : State) (c : FaultCause) : (s.recordFault c).program = s.program := by
  simp [recordFault_eq]

/-- A recorded cause makes STATUS odd: FAULT is 1. -/
theorem statusWord_odd (c : FaultCause) : (statusWord c).toNat % 2 = 1 := by cases c <;> decide

/-- A recorded cause is a legal STATUS. -/
theorem statusWord_legal (c : FaultCause) : statusLegal (statusWord c) = true := by cases c <;> decide

/-! ### Buffers (R30, R63) -/

@[simp] theorem Memory.buf_chunk (m : Memory) : m.buf .chunk = m.chunk := rfl
@[simp] theorem Memory.buf_pkt (m : Memory) : m.buf .pkt = m.pkt := rfl
@[simp] theorem Memory.buf_rx (m : Memory) : m.buf .rx = m.rx := rfl
@[simp] theorem Memory.buf_dec (m : Memory) : m.buf .dec = m.dec := rfl

/-- The buffer written holds what was written. -/
@[simp] theorem Memory.buf_setBuf_same (m : Memory) (b : BufName) (bs : List Byte) : (m.setBuf b bs).buf b = bs := by
  cases b <;> rfl

/-- A buffer write leaves every other buffer. -/
theorem Memory.buf_setBuf_other (m : Memory) {b c : BufName} (bs : List Byte) (h : c ≠ b) :
    (m.setBuf b bs).buf c = m.buf c := by
  cases b <;> cases c <;> first | rfl | exact absurd rfl h

/-- A buffer write leaves every entry of every other buffer. -/
theorem Memory.read_setBuf_other (m : Memory) {b c : BufName} (bs : List Byte) (i : Nat) (h : c ≠ b) :
    (m.setBuf b bs).read c i = m.read c i := by
  simp [Memory.read, Memory.buf_setBuf_other m bs h]

/-- An entry holds a value exactly below the length (R30). -/
theorem Memory.read_isSome (m : Memory) (b : BufName) (i : Nat) : (m.read b i).isSome = true ↔ i < (m.buf b).length := by
  simp [Memory.read]

/-- An emptied buffer has no valued entry. -/
theorem Memory.read_clear_same (m : Memory) (b : BufName) (i : Nat) : (m.clear b).read b i = none := by
  simp [Memory.read, Memory.clear]

/-- An append puts the byte at the index that was the length and keeps the entries below it. -/
theorem Memory.read_push_same (m : Memory) (b : BufName) (v : Byte) (i : Nat) :
    (m.push b v).read b i = if i = (m.buf b).length then some v else m.read b i := by
  simp only [Memory.read, Memory.push, Memory.buf_setBuf_same, List.getElem?_append]
  split
  · rw [if_neg (by omega)]
  · split
    · simp [*]
    · rw [List.getElem?_eq_none (by simp; omega), List.getElem?_eq_none (by omega)]

@[simp] theorem Memory.clear_chunk (m : Memory) : m.clear .chunk = { m with chunk := [] } := rfl
@[simp] theorem Memory.clear_rx (m : Memory) : m.clear .rx = { m with rx := [] } := rfl
@[simp] theorem Memory.clear_dec (m : Memory) : m.clear .dec = { m with dec := [] } := rfl
@[simp] theorem Memory.push_chunk (m : Memory) (v : Byte) : m.push .chunk v = { m with chunk := m.chunk ++ [v] } := rfl
@[simp] theorem Memory.push_rx (m : Memory) (v : Byte) : m.push .rx v = { m with rx := m.rx ++ [v] } := rfl
@[simp] theorem Memory.replace_pkt (m : Memory) (bs : List Byte) : m.replace .pkt bs = { m with pkt := bs } := rfl
@[simp] theorem Memory.replace_dec (m : Memory) (bs : List Byte) : m.replace .dec bs = { m with dec := bs } := rfl

/-! ### The buffers' form is kept (R8, R30) -/

/-- The form is a bound on each buffer. -/
theorem Memory.wf_iff (c : Config) (m : Memory) : m.wf c = true ↔ ∀ b, (m.buf b).length ≤ capacity c b := by
  constructor
  · intro h b
    simp only [Memory.wf, Bool.and_eq_true, decide_eq_true_eq] at h
    obtain ⟨⟨⟨h1, h2⟩, h3⟩, h4⟩ := h
    cases b <;> assumption
  · intro h
    simp only [Memory.wf, Bool.and_eq_true, decide_eq_true_eq]
    exact ⟨⟨⟨h .chunk, h .pkt⟩, h .rx⟩, h .dec⟩

/-- A buffer write of at most the capacity keeps the form. -/
theorem Memory.wf_setBuf {c : Config} {m : Memory} {b : BufName} {bs : List Byte} (h : m.wf c = true)
    (hb : bs.length ≤ capacity c b) : (m.setBuf b bs).wf c = true := by
  rw [Memory.wf_iff] at *
  intro d
  by_cases hd : d = b
  · subst hd; simpa using hb
  · rw [Memory.buf_setBuf_other m bs hd]; exact h d

/-- Emptying a buffer keeps the form. -/
theorem Memory.wf_clear {c : Config} {m : Memory} (b : BufName) (h : m.wf c = true) : (m.clear b).wf c = true :=
  Memory.wf_setBuf h (Nat.zero_le _)

/-- Appending to a buffer below its capacity keeps the form. -/
theorem Memory.wf_push {c : Config} {m : Memory} {b : BufName} (v : Byte) (h : m.wf c = true)
    (hb : (m.buf b).length < capacity c b) : (m.push b v).wf c = true :=
  Memory.wf_setBuf h (by simpa using hb)

/-- Replacing a buffer by at most its capacity keeps the form. -/
theorem Memory.wf_replace {c : Config} {m : Memory} {b : BufName} {bs : List Byte} (h : m.wf c = true)
    (hb : bs.length ≤ capacity c b) : (m.replace b bs).wf c = true := Memory.wf_setBuf h hb

/-- The empty buffers have the form, and they are those of the reset state (R290). -/
theorem Memory.wf_empty (c : Config) : Memory.empty.wf c = true := by simp [Memory.wf, Memory.empty]

theorem reset_mem_wf : State.reset.mem.wf State.reset.cfg = true := Memory.wf_empty _

/-! ### Sequences and sums (R12) -/

@[simp] theorem byteSum_nil : byteSum [] = 0 := rfl
@[simp] theorem byteSum_cons (b : Byte) (bs : List Byte) : byteSum (b :: bs) = b.toNat + byteSum bs := rfl

/-- The sum as a list sum. -/
theorem byteSum_eq_sum (bs : List Byte) : byteSum bs = (bs.map BitVec.toNat).sum := by
  induction bs with
  | nil => rfl
  | cons b bs ih => simp [ih]

theorem byteSum_append (as bs : List Byte) : byteSum (as ++ bs) = byteSum as + byteSum bs := by
  induction as with
  | nil => simp
  | cons a as ih => simp [ih]; omega

/-- n bytes sum to at most 255 n. -/
theorem byteSum_le (bs : List Byte) : byteSum bs ≤ 255 * bs.length := by
  induction bs with
  | nil => simp
  | cons b bs ih => have := b.isLt; simp; omega

end Sys2Proof.Machine
end

