-- ==== Sys2Proof/Laws/Functions.lean ====
section
/-! SUPPORT. The pure functions in plain arithmetic on 0 to 255: the low 7 bits, should_escape, esc_expand, encode, decode,
checksum. -/

namespace Sys2Proof.Machine

/-! ### Result forms of OUT (R52) -/

/-- A one-byte result as a number. -/
theorem outByte_eq (s : State) (v : Byte) : s.outByte v = s.setOut (BitVec.ofNat 16 v.toNat) 1#2 := by
  rw [State.outByte]
  congr 1
  exact BitVec.eq_of_toNat_eq (by rw [BitVec.toNat_setWidth, BitVec.toNat_ofNat])

/-- A two-byte result as a number: the first byte emitted is the low one. -/
theorem outPair_eq (s : State) (first second : Byte) :
    s.outPair first second = s.setOut (BitVec.ofNat 16 (first.toNat + 256 * second.toNat)) 2#2 := by
  rw [State.outPair]
  congr 1
  apply BitVec.eq_of_toNat_eq
  have h1 := first.isLt
  have h2 := second.isLt
  rw [BitVec.toNat_or, BitVec.toNat_shiftLeft, BitVec.toNat_setWidth, BitVec.toNat_setWidth, BitVec.toNat_ofNat,
    Nat.mod_eq_of_lt (show first.toNat < 2 ^ 16 by omega), Nat.mod_eq_of_lt (show second.toNat < 2 ^ 16 by omega),
    Nat.mod_eq_of_lt (by rw [Nat.shiftLeft_eq]; omega),
    ← Nat.shiftLeft_add_eq_or_of_lt (show first.toNat < 2 ^ 8 by omega), Nat.shiftLeft_eq]
  omega

/-- SEQ as a byte has SEQ's value. -/
theorem seqByte_toNat (s : State) : s.seqByte.toNat = s.seq.toNat := by
  have := s.seq.isLt
  rw [State.seqByte, BitVec.toNat_setWidth]
  omega

/-- The build constants' bounds (R7, R9). -/
theorem Config.wf_bounds {c : Config} (h : c.wf = true) :
    1 ≤ c.maxChunk.toNat ∧ c.maxChunk.toNat ≤ 110 ∧ c.typeAck ≠ c.typeNack := by
  simpa [Config.wf, and_assoc] using h

/-! ### Codec (R120, R121) -/

theorem pvEncode_toNat (v : Nat) : (pvEncode v).toNat = (v + 32) % 256 := by simp [pvEncode, PRINT_OFFSET]

theorem pvDecode_toNat (x : Byte) : (pvDecode x).toNat = (x.toNat + 224) % 256 := by simp [pvDecode]

/-! ### Checksum (R130) -/

/-- The carry fold in division and remainder. -/
theorem checksum_toNat (v : Nat) : (checksum v).toNat = 32 + (v + v / 64 % 4) % 64 := by
  have h1 : ∀ n : Nat, n &&& 63 = n % 64 := fun n => Nat.and_two_pow_sub_one_eq_mod n 6
  have h2 : ∀ n : Nat, n &&& 3 = n % 4 := fun n => Nat.and_two_pow_sub_one_eq_mod n 2
  simp only [checksum, pvEncode_toNat, CK_FOLD_SHIFT, CK_FOLD_MASK, CK_MASK, h1, h2, Nat.shiftRight_eq_div_pow, Nat.reducePow]
  omega

/-- The checksum byte as a number. -/
theorem checksum_eq (v : Nat) : checksum v = BitVec.ofNat 8 (32 + (v + v / 64 % 4) % 64) :=
  BitVec.eq_of_toNat_eq (by rw [checksum_toNat, BitVec.toNat_ofNat]; omega)

/-! ### Escaper (R100, R102, R103) -/

theorem low7_toNat (b : Byte) : (low7 b).toNat = b.toNat % 128 := by
  have h : b.toNat &&& 127 = b.toNat % 128 := Nat.and_two_pow_sub_one_eq_mod b.toNat 7
  simp [low7, h]

/-- The low 7 bits are those of the escape character exactly for 0x23 and 0xA3 (R101). -/
theorem low7_eq_esc (b : Byte) : low7 b = ESC_CHAR ↔ b.toNat % 128 = 0x23 := by
  rw [← low7_toNat, ← BitVec.toNat_inj]; rfl

/-- should_escape in plain arithmetic (R100). -/
theorem shouldEscape_iff (b : Byte) :
    shouldEscape b = true ↔ b.toNat % 128 < 0x20 ∨ b.toNat % 128 = 0x7F ∨ b.toNat % 128 = 0x23 := by
  have h1 : (low7 b < CTL_LIMIT) ↔ b.toNat % 128 < 0x20 := by rw [← low7_toNat, BitVec.lt_def]; rfl
  have h2 : low7 b = DEL_CHAR ↔ b.toNat % 128 = 0x7F := by rw [← low7_toNat, ← BitVec.toNat_inj]; rfl
  simp [shouldEscape, h1, h2, low7_eq_esc, or_assoc]

/-- Flipping bit 6 (CTL_XOR) in plain arithmetic. -/
theorem xor_ctl_toNat (b : Byte) :
    (b ^^^ CTL_XOR).toNat = if b.toNat / 64 % 2 = 0 then b.toNat + 64 else b.toNat - 64 := by
  revert b; decide

/-- The three forms of esc_expand (R102). -/
theorem escExpand_cases (b : Byte) :
    (shouldEscape b = false ∧ escExpand b = [b])
      ∨ (shouldEscape b = true ∧ low7 b = ESC_CHAR ∧ escExpand b = [ESC_CHAR, b])
      ∨ (shouldEscape b = true ∧ low7 b ≠ ESC_CHAR ∧ escExpand b = [ESC_CHAR, b ^^^ CTL_XOR]) := by
  unfold escExpand
  cases h : shouldEscape b
  · simp
  · by_cases h2 : low7 b = ESC_CHAR <;> simp [h2]

@[simp] theorem escaped_nil : escaped [] = [] := rfl
@[simp] theorem escaped_cons (b : Byte) (bs : List Byte) : escaped (b :: bs) = escExpand b ++ escaped bs := rfl

/-- An escaped byte takes at most two bytes (R102). -/
theorem escExpand_length_le (b : Byte) : (escExpand b).length ≤ 2 := by
  rcases escExpand_cases b with ⟨_, h⟩ | ⟨_, _, h⟩ | ⟨_, _, h⟩ <;> simp [h]

/-- So a packet of a chunk within capacity is within PKT's capacity (R8). -/
theorem dataPacket_length (seq fType : Byte) (p : List Byte) : (dataPacket seq fType p).length = p.length + 6 := by
  simp [dataPacket]

/-! ### The host program notation (R241) -/

/-- The file of a host program has the size H.OPEN gives. -/
theorem fileOfSize_length (size : Nat) (said : List Byte) : (fileOfSize size said).length = size := by
  simp [fileOfSize]
  omega

/-- It begins with the bytes the H.FILE lines say, where they fit the size. -/
theorem fileOfSize_take {size : Nat} {said : List Byte} (h : said.length ≤ size) :
    (fileOfSize size said).take said.length = said := by
  simp [fileOfSize, List.take_of_length_le h]

end Sys2Proof.Machine
end

