-- ==== Sys2Proof/Laws/Exec.lean ====
section
/-! SUPPORT. What each command does, one equation per constructor, and that every command completes. -/

namespace Sys2Proof.Machine

theorem exec_seqrst (s : State) : exec .seqrst s = .next (s.setSeq 0#7) := rfl

theorem exec_seqinc (s : State) : exec .seqinc s = .next (s.setSeq (s.seq + 1#7)) := by
  show Host.Outcome.next (s.setSeq _) = _
  congr 2
  exact BitVec.eq_of_toNat_eq (by simp [SEQ_MOD])

theorem exec_esctst (b : Byte) (s : State) :
    exec (.esctst b) s = .next (s.outByte (if shouldEscape b then 1#8 else 0#8)) := rfl

/-- ESCENC's two result forms (R111). -/
theorem exec_escenc (b : Byte) (s : State) :
    exec (.escenc b) s = .next (if shouldEscape b = false then s.outByte b
      else if low7 b = ESC_CHAR then s.outPair ESC_CHAR b else s.outPair ESC_CHAR (b ^^^ CTL_XOR)) := by
  show execEscenc b s = _
  rcases escExpand_cases b with ⟨h, e⟩ | ⟨h, h2, e⟩ | ⟨h, h2, e⟩ <;> simp [execEscenc, *]

theorem exec_escdec (b : Byte) (s : State) : exec (.escdec b) s = .next (s.outByte (unescape b)) := rfl

theorem exec_tochar (v : Byte) (s : State) : exec (.tochar v) s = .next (s.outByte (pvEncode v.toNat)) := rfl

theorem exec_unchar (x : Byte) (s : State) : exec (.unchar x) s = .next (s.outByte (pvDecode x)) := rfl

theorem exec_cksum (w : Word16) (s : State) : exec (.cksum w) s = .next (s.outByte (checksum w.toNat)) := rfl

theorem exec_txclr (s : State) : exec .txclr s = .next (s.setMem (s.mem.clear .chunk)) := rfl

theorem exec_rxclr (s : State) : exec .rxclr s = .next (s.setMem (s.mem.clear .rx)) := rfl

/-- TXPUSH: append, or record the fault (R141). -/
theorem exec_txpush (b : Byte) (s : State) :
    exec (.txpush b) s = .next (if s.mem.chunk.length = capacity s.cfg .chunk then s.recordFault .chunkOverflow
      else s.setMem (s.mem.push .chunk b)) := by
  show execTxpush b s = _
  unfold execTxpush
  split <;> rfl

/-- RXPUSH: append, or record the fault (R161). -/
theorem exec_rxpush (b : Byte) (s : State) :
    exec (.rxpush b) s = .next (if s.mem.rx.length = capacity s.cfg .rx then s.recordFault .rxOverflow
      else s.setMem (s.mem.push .rx b)) := by
  show execRxpush b s = _
  unfold execRxpush
  split <;> rfl

theorem exec_build (s : State) :
    exec .build s = .next ((s.setMem (s.mem.replace .pkt (dataPacket s.seqByte s.cfg.typeData (escaped s.mem.chunk)))).setSum
      (dataPacketSum s.seqByte s.cfg.typeData (escaped s.mem.chunk))) := rfl

theorem exec_ackchk (s : State) :
    exec .ackchk s =
      .next ((s.setAckres (ackCode (decodeAck s.cfg s.mem.rx s.seqByte))).noteSum (ackSum s.mem.rx)) := rfl

theorem exec_datchk (s : State) :
    exec .datchk s = .next (((s.setDatres (dataCode (decodeData s.cfg.typeData s.mem.rx))).noteSum
      (dataSum (decodeData s.cfg.typeData s.mem.rx))).storePayload (decodeData s.cfg.typeData s.mem.rx)) := rfl

/-- Every command completes, from every state (R299). -/
theorem exec_completes (i : Instr) (s : State) : ∃ t, exec i s = .next t := by
  cases i
  case escenc b => exact ⟨_, exec_escenc b s⟩
  case txpush b => exact ⟨_, exec_txpush b s⟩
  case rxpush b => exact ⟨_, exec_rxpush b s⟩
  all_goals exact ⟨_, rfl⟩

/-! ### noteSum and storePayload -/

/-- noteSum writes SUM alone. -/
theorem noteSum_eq (s : State) (o : Option Nat) :
    s.noteSum o = { s with sum := match o with | some v => BitVec.ofNat 16 v | none => s.sum } := by cases o <;> rfl

@[simp] theorem noteSum_cfg (s : State) (o : Option Nat) : (s.noteSum o).cfg = s.cfg := by cases o <;> rfl
@[simp] theorem noteSum_mem (s : State) (o : Option Nat) : (s.noteSum o).mem = s.mem := by cases o <;> rfl
@[simp] theorem noteSum_seq (s : State) (o : Option Nat) : (s.noteSum o).seq = s.seq := by cases o <;> rfl
@[simp] theorem noteSum_status (s : State) (o : Option Nat) : (s.noteSum o).status = s.status := by cases o <;> rfl
@[simp] theorem noteSum_host (s : State) (o : Option Nat) : (s.noteSum o).host = s.host := by cases o <;> rfl
@[simp] theorem noteSum_env (s : State) (o : Option Nat) : (s.noteSum o).env = s.env := by cases o <;> rfl
@[simp] theorem noteSum_program (s : State) (o : Option Nat) : (s.noteSum o).program = s.program := by cases o <;> rfl
@[simp] theorem noteSum_ackres (s : State) (o : Option Nat) : (s.noteSum o).ackres = s.ackres := by cases o <;> rfl

/-- storePayload writes DEC and RSEQ alone. -/
theorem storePayload_eq (s : State) (r : DataResult) :
    s.storePayload r = { s with
      rseq := match r with | .ok _ q _ => q | _ => s.rseq
      mem := { s.mem with dec := match r with | .ok _ _ out => out | _ => [] } } := by cases r <;> rfl

/-! ### The command port -/

/-- A command's own word decodes to it (R78). One direction, for the host's issued words; both directions are an obligation. -/
theorem decodeCmd_encode_seqrst : decodeCmd (encode .seqrst) = .instr .seqrst := by decide
theorem decodeCmd_encode_seqinc : decodeCmd (encode .seqinc) = .instr .seqinc := by decide
theorem decodeCmd_encode_txclr : decodeCmd (encode .txclr) = .instr .txclr := by decide
theorem decodeCmd_encode_build : decodeCmd (encode .build) = .instr .build := by decide
theorem decodeCmd_encode_rxclr : decodeCmd (encode .rxclr) = .instr .rxclr := by decide
theorem decodeCmd_encode_ackchk : decodeCmd (encode .ackchk) = .instr .ackchk := by decide

/-- Issuing a word that decodes performs its command. -/
theorem issue_of_decode {w : Command} {i : Instr} (h : decodeCmd w = .instr i) (s : State) : issue w s = exec i s := by
  simp [issue, h]

/-- Issuing a word that does not decode records its fault. -/
theorem issue_of_fault {w : Command} {c : FaultCause} (h : decodeCmd w = .fault c) (s : State) :
    issue w s = .next (s.recordFault c) := by
  simp [issue, h]

/-- A step with a waiting port action performs it. -/
theorem step_port (s : State) (a : PortAction) (rest : List PortAction) (h : s.program = a :: rest) :
    step s = doPort a (s.setProgram rest) := by
  simp [step, h]

/-- A step with none is the Transfer Controller's. -/
theorem step_controller (s : State) (h : s.program = []) : step s = ctlStep s := by
  simp [step, h]

end Sys2Proof.Machine
end

