-- ==== Sys2Proof/Laws/PerInstr.lean ====
section
/-! SUPPORT. One lemma per command: its word has its opcode, a zero RSV field, and zeros in every bit of IMM its class wants zero
(spec/30_encoding.md R71, R72, R78). -/

namespace Sys2Proof.Laws.WellFormedEncoding

/-- The fields of a command's word are its opcode and operand, and the word passes every check of its operand class. -/
def Statement (i : Instr) : Prop :=
  rawOf (encode i) = { op := opcodeOf i, rsv := 0#8, imm := immOf i } ∧ (rawOf (encode i)).wellFormed i.opClass = true

/-- The fields of any command's word. -/
theorem fields (i : Instr) : rawOf (encode i) = { op := opcodeOf i, rsv := 0#8, imm := immOf i } := by
  have h1 := (opcodeOf i).isLt
  have h2 := (immOf i).isLt
  have he := encode_toNat i
  have hop : (rawOf (encode i)).op = opcodeOf i := BitVec.eq_of_toNat_eq (by rw [rawOf_op_toNat, he]; omega)
  have hrsv : (rawOf (encode i)).rsv = 0#8 := BitVec.eq_of_toNat_eq (by rw [rawOf_rsv_toNat, he]; simp; omega)
  have himm : (rawOf (encode i)).imm = immOf i := BitVec.eq_of_toNat_eq (by rw [rawOf_imm_toNat, he]; omega)
  cases hr : rawOf (encode i)
  rw [hr] at hop hrsv himm
  simp_all

/-- A command whose IMM fits its class has a well-formed word. -/
theorem of_immFits (i : Instr) (h : RawCommand.immFits { op := opcodeOf i, rsv := 0#8, imm := immOf i } i.opClass = true) :
    Statement i :=
  ⟨fields i, by rw [fields i, RawCommand.wellFormed, h]; rfl⟩

/-- A zero-extended byte leaves bits 15:8 zero. -/
theorem byte_high (b : Byte) : ((b.setWidth 16).extractLsb' 8 8 == 0#8) = true := by revert b; decide

theorem seqrst : Statement .seqrst := of_immFits _ rfl
theorem seqinc : Statement .seqinc := of_immFits _ rfl
theorem esctst (b : Byte) : Statement (.esctst b) := of_immFits _ (byte_high b)
theorem escenc (b : Byte) : Statement (.escenc b) := of_immFits _ (byte_high b)
theorem escdec (b : Byte) : Statement (.escdec b) := of_immFits _ (byte_high b)
theorem tochar (v : Byte) : Statement (.tochar v) := of_immFits _ (byte_high v)
theorem unchar (x : Byte) : Statement (.unchar x) := of_immFits _ (byte_high x)
theorem cksum (w : Word16) : Statement (.cksum w) := of_immFits _ rfl
theorem txclr : Statement .txclr := of_immFits _ rfl
theorem txpush (b : Byte) : Statement (.txpush b) := of_immFits _ (byte_high b)
theorem build : Statement .build := of_immFits _ rfl
theorem rxclr : Statement .rxclr := of_immFits _ rfl
theorem rxpush (b : Byte) : Statement (.rxpush b) := of_immFits _ (byte_high b)
theorem ackchk : Statement .ackchk := of_immFits _ rfl
theorem datchk : Statement .datchk := of_immFits _ rfl

end Sys2Proof.Laws.WellFormedEncoding
end

