-- ==== Sys2Proof/Tests/Slice0.lean ====
section
/-! SUPPORT. The model's own small tests: ill-formed terms the checks refuse, command words written out field by field from Tables R71
and R75, one step of each command with results from spec/95_test_vectors.md, and for each statement with hypotheses a state that
meets them. -/

namespace Sys2Proof.Tests

open Sys2Proof Sys2Proof.Machine

/-- The answer is a next state with this property. -/
def answers (o : Host.Outcome State Fault Refusal) (p : State → Bool) : Bool :=
  match o with
  | .next t => p t
  | .fault _ => false
  | .refused _ => false

/-- The reset state (TYPE_DATA 0x44, TYPE_ACK 0x59, TYPE_NACK 0x4E, MAX_CHUNK 100, as spec/95 assumes) with this SEQ and CHUNK. -/
def withChunk (seq : BitVec 7) (bs : List Byte) : State :=
  { State.reset with seq := seq, mem := { Memory.empty with chunk := bs } }

/-- The reset state with this SEQ and RX. -/
def withRx (seq : BitVec 7) (bs : List Byte) : State :=
  { State.reset with seq := seq, mem := { Memory.empty with rx := bs } }

/-- The reset state with these port actions waiting. -/
def withProgram (p : List PortAction) : State := { State.reset with program := p }

/-! ### WellFormed refuses ill-formed terms -/

theorem test_rsv_must_be_zero : RawCommand.rsvZero { op := 0x01#8, rsv := 0x01#8, imm := 0#16 } = false := by decide
theorem test_class_n_imm_must_be_zero : RawCommand.immFits { op := 0x01#8, rsv := 0#8, imm := 1#16 } .n = false := by decide
theorem test_class_b_high_must_be_zero : RawCommand.immFits { op := 0x41#8, rsv := 0#8, imm := 0x0141#16 } .b = false := by decide
theorem test_class_w_takes_all : RawCommand.immFits { op := 0x30#8, rsv := 0#8, imm := 0xFFFF#16 } .w = true := by decide
theorem test_word_with_rsv_is_ill_formed :
    RawCommand.wellFormed { op := 0x30#8, rsv := 0xFF#8, imm := 0#16 } .w = false := by decide
theorem test_byte_operand_too_large : operandFits .b (some 0x100) = false := by decide
theorem test_word_operand_too_large : operandFits .w (some 0x10000) = false := by decide
theorem test_missing_operand : operandFits .b none = false := by decide
theorem test_extra_operand : operandFits .n (some 0) = false := by decide

/-! ### Words written out as OP, RSV, IMM (Tables R71, R75) -/

theorem test_decode_seqrst :
    decodeCmd (0b00000001#8 ++ 0b00000000#8 ++ 0b0000000000000000#16) = .instr (.seqrst) := by decide
theorem test_decode_seqinc :
    decodeCmd (0b00000010#8 ++ 0b00000000#8 ++ 0b0000000000000000#16) = .instr (.seqinc) := by decide
theorem test_decode_esctst :
    decodeCmd (0b00010000#8 ++ 0b00000000#8 ++ 0b0000000000100011#16) = .instr (.esctst 0x23#8) := by decide
theorem test_decode_escenc :
    decodeCmd (0b00010001#8 ++ 0b00000000#8 ++ 0b0000000000001101#16) = .instr (.escenc 0x0D#8) := by decide
theorem test_decode_escdec :
    decodeCmd (0b00010010#8 ++ 0b00000000#8 ++ 0b0000000001001101#16) = .instr (.escdec 0x4D#8) := by decide
theorem test_decode_tochar :
    decodeCmd (0b00100000#8 ++ 0b00000000#8 ++ 0b0000000001100111#16) = .instr (.tochar 103#8) := by decide
theorem test_decode_unchar :
    decodeCmd (0b00100001#8 ++ 0b00000000#8 ++ 0b0000000001010101#16) = .instr (.unchar 0x55#8) := by decide
theorem test_decode_cksum :
    decodeCmd (0b00110000#8 ++ 0b00000000#8 ++ 0b1000000010000111#16) = .instr (.cksum 0x8087#16) := by decide
theorem test_decode_txclr :
    decodeCmd (0b01000000#8 ++ 0b00000000#8 ++ 0b0000000000000000#16) = .instr (.txclr) := by decide
theorem test_decode_txpush :
    decodeCmd (0b01000001#8 ++ 0b00000000#8 ++ 0b0000000001001000#16) = .instr (.txpush 0x48#8) := by decide
theorem test_decode_build :
    decodeCmd (0b01000010#8 ++ 0b00000000#8 ++ 0b0000000000000000#16) = .instr (.build) := by decide
theorem test_decode_rxclr :
    decodeCmd (0b01010000#8 ++ 0b00000000#8 ++ 0b0000000000000000#16) = .instr (.rxclr) := by decide
theorem test_decode_rxpush :
    decodeCmd (0b01010001#8 ++ 0b00000000#8 ++ 0b0000000011111110#16) = .instr (.rxpush 0xFE#8) := by decide
theorem test_decode_ackchk :
    decodeCmd (0b01010010#8 ++ 0b00000000#8 ++ 0b0000000000000000#16) = .instr (.ackchk) := by decide
theorem test_decode_datchk :
    decodeCmd (0b01010011#8 ++ 0b00000000#8 ++ 0b0000000000000000#16) = .instr (.datchk) := by decide

/-! ### Illegal words (95 L2.1, R76) -/

theorem test_zero_word_is_illegal : decodeCmd 0x00000000#32 = .fault .illegalOpcode := by decide
theorem test_op_after_datchk_is_illegal : decodeCmd 0x54000000#32 = .fault .illegalOpcode := by decide
theorem test_opcode_before_reserved : decodeCmd 0x13FFFFFF#32 = .fault .illegalOpcode := by decide
theorem test_reserved_field : decodeCmd 0x30FF0000#32 = .fault .reservedField := by decide
theorem test_class_n_operand : decodeCmd 0x01000001#32 = .fault .reservedField := by decide
theorem test_class_b_high_byte : decodeCmd 0x41000141#32 = .fault .reservedField := by decide

/-! ### The host's two definitions and one step (R70) -/

theorem test_table_word : decodeTableWord 32 0x41000048 = some (.txpush 0x48#8) := by decide
theorem test_table_word_illegal : decodeTableWord 32 0x41000148 = none := by decide
theorem test_step_runs_the_placed_word :
    answers (step (State.reset.withFetchWord 32 0x41000048)) (fun t => t.mem.chunk == [0x48#8] && t.program == []) = true := by
  decide
/-- 95 L2.1: a full CHUNK and a bad word record RESERVED_FIELD. -/
theorem test_fault_priority :
    answers (step ((withChunk 0 (List.replicate 100 0x41#8)).withFetchWord 32 0x41000141)) (fun t => t.status == 0x05#8) = true := by
  decide
/-- 95 L2.1: the first cause is kept. -/
theorem test_first_cause_is_kept :
    answers (issue 0x00000000#32 { State.reset with status := 0x05#8 }) (fun t => t.status == 0x05#8) = true := by decide

/-! ### One command each (95 L2.2 to L2.9) -/

/-- R200's example. -/
theorem test_seqrst :
    answers (exec (.seqrst) { State.reset with seq := 57#7 }) (fun t => t.seq == 0#7) = true := by decide
/-- R201's example. -/
theorem test_seqinc_wraps :
    answers (exec (.seqinc) { State.reset with seq := 127#7 }) (fun t => t.seq == 0#7) = true := by decide
theorem test_seqinc_is_not_mod_100 :
    answers (exec (.seqinc) { State.reset with seq := 99#7 }) (fun t => t.seq == 100#7) = true := by decide
/-- 95 L2.2. -/
theorem test_esctst_bit7 :
    answers (exec (.esctst 0xA3#8) State.reset) (fun t => t.out == 1#16 && t.outn == 1#2) = true := by decide
theorem test_esctst_threshold :
    answers (exec (.esctst 0x20#8) State.reset) (fun t => t.out == 0#16) = true := by decide
/-- 95 L2.2. -/
theorem test_escenc_delete :
    answers (exec (.escenc 0x7F#8) State.reset) (fun t => t.out == 0x3F23#16 && t.outn == 2#2) = true := by decide
theorem test_escenc_literal :
    answers (exec (.escenc 0xA3#8) State.reset) (fun t => t.out == 0xA323#16 && t.outn == 2#2) = true := by decide
/-- 95 L2.2. -/
theorem test_escdec_control :
    answers (exec (.escdec 0x4D#8) State.reset) (fun t => t.out == 0x000D#16 && t.outn == 1#2) = true := by decide
theorem test_escdec_literal :
    answers (exec (.escdec 0xA3#8) State.reset) (fun t => t.out == 0x00A3#16) = true := by decide
/-- 95 L2.3. -/
theorem test_tochar_wraps :
    answers (exec (.tochar 224#8) State.reset) (fun t => t.out == 0#16 && t.outn == 1#2) = true := by decide
/-- 95 L2.3. -/
theorem test_unchar_wraps :
    answers (exec (.unchar 0x1F#8) State.reset) (fun t => t.out == 0x00FF#16) = true := by decide
/-- 95 L2.4; SUM stays. -/
theorem test_cksum_folds_once :
    answers (exec (.cksum 127#16) { State.reset with sum := 7#16 }) (fun t => t.out == 0x0020#16 && t.sum == 7#16) = true := by decide
theorem test_cksum_low_byte :
    answers (exec (.cksum 51765#16) State.reset) (fun t => t.out == 0x0055#16) = true := by decide
/-- 95 L2.5. -/
theorem test_txclr :
    answers (exec (.txclr) (withChunk 0 [1#8, 2#8])) (fun t => t.chunkLen == 0#7) = true := by decide
/-- 95 L2.5. -/
theorem test_txpush_last :
    answers (exec (.txpush 0xFF#8) (withChunk 0 (List.replicate 99 0x41#8))) (fun t => t.chunkLen == 100#7 && t.status == 0#8) = true := by decide
theorem test_txpush_full :
    answers (exec (.txpush 0#8) (withChunk 0 (List.replicate 100 0x41#8))) (fun t => t.chunkLen == 100#7 && t.status == 0x07#8) = true := by decide
/-- 95 L2.6. -/
theorem test_build_escapes :
    answers (exec (.build) (withChunk 0 [0x23#8, 0x0D#8])) (fun t => t.mem.pkt == [0x01#8, 0x27#8, 0x20#8, 0x44#8, 0x23#8, 0x23#8, 0x23#8, 0x4D#8, 0x22#8, 0x0D#8] && t.sum == 321#16) = true := by decide
theorem test_build_sequence_96 :
    answers (exec (.build) (withChunk 96 [0x03#8])) (fun t => t.mem.pkt == [0x01#8, 0x25#8, 0x80#8, 0x44#8, 0x23#8, 0x43#8, 0x30#8, 0x0D#8] && t.pktLen == 8#8) = true := by decide
/-- 95 L2.5. -/
theorem test_rxclr :
    answers (exec (.rxclr) (withRx 0 [1#8, 2#8])) (fun t => t.rxLen == 0#8) = true := by decide
/-- R161's example. -/
theorem test_rxpush :
    answers (exec (.rxpush 0x01#8) State.reset) (fun t => t.mem.rx == [0x01#8] && t.rxLen == 1#8) = true := by decide
/-- 95 L2.5. -/
theorem test_rxpush_full :
    answers (exec (.rxpush 0#8) (withRx 0 (List.replicate 206 0x41#8))) (fun t => t.status == 0x09#8) = true := by
  have full : (withRx 0 (List.replicate 206 0x41#8)).mem.rx.length = capacity (withRx 0 (List.replicate 206 0x41#8)).cfg .rx :=
    List.length_replicate
  rw [exec_rxpush, if_pos full]
  decide
/-- 95 L2.7. -/
theorem test_ackchk_checksum_first :
    answers (exec (.ackchk) (withRx 1 [0x01#8, 0x23#8, 0x20#8, 0x59#8, 0x3F#8, 0x0D#8])) (fun t => t.ackres == 3#3 && t.sum == 156#16) = true := by decide
theorem test_ackchk_sequence_not_reduced :
    answers (exec (.ackchk) (withRx 0 [0x01#8, 0x23#8, 0xA0#8, 0x59#8, 0x3C#8, 0x0D#8])) (fun t => t.ackres == 4#3 && t.sum == 284#16) = true := by decide
/-- 95 L2.8. -/
theorem test_datchk_unescapes :
    answers (exec (.datchk) (withRx 9 [0x01#8, 0x27#8, 0x20#8, 0x44#8, 0x23#8, 0x23#8, 0x23#8, 0x4D#8, 0x22#8, 0x0D#8])) (fun t => t.datres == 1#3 && t.mem.dec == [0x23#8, 0x0D#8] && t.sum == 321#16 && t.rseq == 0#8) = true := by decide
theorem test_datchk_lone_marker :
    answers (exec (.datchk) { withRx 0 [0x01#8, 0x24#8, 0x20#8, 0x44#8, 0x23#8, 0x4D#8, 0x0D#8] with rseq := 9#8 }) (fun t => t.datres == 7#3 && t.mem.dec == [] && t.sum == 171#16 && t.rseq == 9#8) = true := by decide

/-! ### The ports -/

/-- 95 L2.10: CFG_MAX_CHUNK is 100; number 16 is refused. -/
theorem test_read_config : State.reset.readReg 12 = some 100#16 := by decide
theorem test_read_refused : State.reset.readReg 16 = none := by decide
theorem test_read_above_length : (withChunk 0 [0x48#8]).readBuf .chunk 1 = none := by decide
theorem test_reset_clears_fault :
    answers (step { State.reset with status := 0x05#8, program := [.reset] }) (fun t => t.status == 0#8) = true := by decide
/-- R238: a transfer that runs cannot be started over. -/
theorem test_no_cancellation : doPort .startTransfer State.reset = .refused .transferInProgress := by rfl

/-! ### The assembler (R78, R79) -/

/-- R78's example. -/
theorem test_assemble_hex : assembleLine "TXPUSH 0x23".toList = some [0x41000023#32] := by decide
theorem test_assemble_character : assembleLine "TXPUSH 'A' ; a letter".toList = some [0x41000041#32] := by decide
/-- The model's own choice (log 21): a quoted character needs no separator. -/
theorem test_assemble_character_without_blank : assembleLine "TXPUSH'A'".toList = some [0x41000041#32] := by decide
theorem test_assemble_stray_quote : assembleLine "TXPUSH 'AB'".toList = none := by decide
theorem test_assemble_decimal : assembleLine "TOCHAR 103".toList = some [0x20000067#32] := by decide
theorem test_assemble_too_large : assembleLine "TXPUSH 0x100".toList = none := by decide
theorem test_assemble_txload :
    assembleLine "TXLOAD 0x48, 0x69".toList = some [0x40000000#32, 0x41000048#32, 0x41000069#32] := by decide
theorem test_assemble_rxload_empty : assembleLine "RXLOAD".toList = some [0x50000000#32] := by decide
/-- R78's and R123's examples: the source text is listed as it was written. -/
theorem test_listing : listSource "TXPUSH 0x23".toList = some ["41000023  TXPUSH 0x23".toList] := by decide
theorem test_listing_decimal : listSource "TOCHAR 103".toList = some ["20000067  TOCHAR 103".toList] := by decide
theorem test_listing_character : listSource "TXPUSH 'H'".toList = some ["41000048  TXPUSH 'H'".toList] := by decide
/-- R79: a listing shows the expanded words. -/
theorem test_listing_expands : listSource "RXLOAD 'A', 13".toList =
    some ["50000000  RXCLR".toList, "51000041  RXPUSH 'A'".toList, "5100000D  RXPUSH 13".toList] := by decide
theorem test_listing_refuses_errors : listSource "TXPUSH 0x100".toList = none := by decide

/-! ### The host program notation (R241) -/

/-- H.OPEN's size is the file's, though the H.FILE lines say fewer bytes. -/
theorem test_host_file_has_its_size :
    (hostEnv [.hOpen 3, .hFile [0x48#8, 0x69#8], .hWritePkt, .hRead [0x01#8]]).opens.map (Option.map List.length) = [some 3] := by
  decide
theorem test_host_file_bytes : (hostEnv [.hOpen 2, .hFile [0x48#8], .hFile [0x69#8]]).opens = [some [0x48#8, 0x69#8]] := by decide

/-! ### The host, one action -/

/-- R224.1: the first step from reset is the host's SEQRST. -/
theorem test_first_host_step : answers (step State.reset) (fun t => t.host.hpc == .idleOpen && t.seq == 0#7) = true := by decide
/-- R227.2: a read of more than 6 bytes is cut to the 6 asked for. -/
theorem test_read_is_cut :
    (Env.takeRead { Env.init with reads := [[1#8, 2#8, 3#8, 4#8, 5#8, 6#8, 7#8]] }).1.length = 6 := by decide
/-- R239, U10: a short file read has no move. -/
theorem test_short_file_read :
    ctlChunkRead { State.reset with host := { Controller.init with chunkLen := 2, file := some [1#8] } } = .fault .shortFileRead := by
  rfl

/-! ### Witnesses: each statement's hypotheses are met -/

/-- The frame of an acknowledgment of 0. -/
def ack0 : List Byte := [0x01#8, 0x23#8, 0x20#8, 0x59#8, 0x3E#8, 0x0D#8]

/-- The empty data packet at SEQ 0. -/
def packet0 : List Byte := [0x01#8, 0x23#8, 0x20#8, 0x44#8, 0x29#8, 0x0D#8]

/-- A transfer with a packet of one byte in flight, at this position, with this result and this many failed attempts. -/
def inFlight (p : Hpc) (res : BitVec 3) (failed : Nat) : State :=
  { State.reset with
    ackres := res
    mem := { Memory.empty with
      chunk := [0x41#8], pkt := [0x01#8, 0x24#8, 0x20#8, 0x44#8, 0x41#8, 0x2C#8, 0x0D#8] }
    host := { Controller.init with hpc := p, remaining := 1, chunkLen := 1, retryCount := failed, file := some [] } }

theorem inFlight_attempting (p : Hpc) (res : BitVec 3) (failed : Nat) (h : failed < 4) : attempting (inFlight p res failed) :=
  ⟨⟨Nat.one_pos, by show 1 ≤ 100; decide, Nat.le_refl 1, [], rfl, rfl⟩,
    ⟨rfl, by show [0x01#8, 0x24#8, 0x20#8, 0x44#8, 0x41#8, 0x2C#8, 0x0D#8] = dataPacket 0#8 0x44#8 (escaped [0x41#8]); decide⟩, h⟩

theorem default_wf : State.reset.cfg.wf = true := by decide

theorem witness_FirstFailingDecodeCheckDecides :
    decodeCmd 0x03000000#32 = .fault .illegalOpcode ∧ decodeCmd 0x53010000#32 = .fault .reservedField
      ∧ decodeCmd 0x51000100#32 = .fault .reservedField ∧ decodeCmd 0x300000FF#32 = .instr (.cksum 0xFF#16) := by decide

theorem witness_StepPerformsThePresentedCommand :
    (withProgram [.command 0x02000000#32]).program = .command 0x02000000#32 :: []
      ∧ decodeCmd 0x02000000#32 = .instr .seqinc ∧ decodeTableWord 32 0x02000000 = some .seqinc := by decide

theorem witness_AssemblerRefusesLargeOperands :
    (Instr.txpush 0#8).opClass = .b ∧ 0xFF < 0x100 ∧ (Instr.cksum 0#16).opClass = .w ∧ 0xFFFF < 0x10000 := by decide

theorem witness_ListingShowsEachWordWithItsSource :
    assembleLine "CKSUM 0x0143 ; SUM".toList = some (0x30000143#32 :: [])
      ∧ (tokens [] "CKSUM 0x0143 ; SUM".toList).head? ≠ some "TXLOAD".toList
      ∧ (tokens [] "CKSUM 0x0143 ; SUM".toList).head? ≠ some "RXLOAD".toList
      ∧ assembleLine "TXLOAD 255, ';'".toList = some (0x40000000#32 :: [0x410000FF#32, 0x4100003B#32])
      ∧ assembleLine "TXLOAD".toList = some (0x40000000#32 :: []) := by decide

theorem witness_SeqCountsModulo128 : State.reset.seq = 0#7 ∧ 0x01000000#32 ∉ [0x02000000#32, 0xFF000000#32] := by decide

theorem witness_EscapedBytesAreNoDelimiters : 0x4D#8 ∈ escaped [0x0D#8] ∧ 0x20#8 ∈ escaped [0x20#8] := by decide

theorem witness_EscaperHasItsProperties :
    shouldEscape 0x1F#8 = true ∧ shouldEscape 0x20#8 = false ∧ 0x3F#8 ∈ escExpand 0x7F#8
      ∧ escExpand 0x23#8 = [ESC_CHAR, 0x23#8] ∧ unescape 0x23#8 = unescape 0x23#8 := by decide

theorem witness_CodecRoundTrips : (255 : Nat) ≤ 255 ∧ (pvDecode (pvEncode 255)).toNat = 255 := by decide

theorem witness_PushAppendsOrOverflows :
    (withChunk 0 (List.replicate 99 1#8)).mem.chunk.length ≠ 100 ∧ (withChunk 0 (List.replicate 100 1#8)).mem.chunk.length = 100
      ∧ (withRx 0 (List.replicate 205 1#8)).mem.rx.length ≠ 2 * 100 + 6
      ∧ (withRx 0 (List.replicate 206 1#8)).mem.rx.length = 2 * 100 + 6 ∧ State.reset.cfg.maxChunk.toNat = 100 := by
  simp [withChunk, withRx, State.reset, State.resetWith, Config.default]

theorem witness_BuildAssemblesThePacket :
    (withChunk 127 (List.replicate 100 0x9F#8)).cfg.wf = true ∧ (withChunk 127 (List.replicate 100 0x9F#8)).mem.chunk.length ≤ 100
      ∧ State.reset.mem.chunk.length ≤ 100 := by
  refine ⟨default_wf, ?_, ?_⟩ <;> simp [withChunk, State.reset, State.resetWith, Memory.empty]

theorem witness_BuiltPacketIsSelfDelimiting :
    (withChunk 5 [0x23#8]).cfg.wf = true ∧ (withChunk 5 [0x23#8]).mem.chunk.length ≤ (withChunk 5 [0x23#8]).cfg.maxChunk.toNat
      ∧ ∃ t, exec .build (withChunk 5 [0x23#8]) = .next t := ⟨default_wf, by decide, _, rfl⟩

theorem witness_RebuildGivesTheSamePacket :
    ∃ t u v, exec .build (withChunk 5 [0x23#8]) = .next t ∧ exec .seqinc t = .next u ∧ exec .build u = .next v :=
  ⟨_, _, _, rfl, rfl, rfl⟩

theorem witness_EmptyChunkPacket : State.reset.mem.chunk = [] := rfl

theorem witness_AckchkRejectsOtherLengths :
    (withRx 0 (ack0.take 5)).mem.rx.length ≠ 6 ∧ (withRx 0 (ack0 ++ [0x0D#8])).mem.rx.length ≠ 6 := by decide

theorem witness_SequenceByteIsNotReduced :
    (withRx 0 [0x01#8, 0x23#8, 0xA0#8, 0x59#8, 0x3C#8, 0x0D#8]).mem.rx =
        [0x01#8, 0x23#8, 0xA0#8, 0x59#8, checksum ((0x23#8).toNat + (0xA0#8).toNat + (0x59#8).toNat), 0x0D#8]
      ∧ 0xA0 ≤ (0xA0#8).toNat ∧ (0x1F#8).toNat ≤ 0x1F ∧ ∃ t, exec .ackchk (withRx 0 ack0) = .next t :=
  ⟨by decide, by decide, by decide, _, rfl⟩

theorem witness_WellFormedAckIsAcknowledgedOnlyAtItsSeq :
    (withRx 0 ack0).mem.rx = ackFrame State.reset.cfg 0#7
      ∧ (withRx 1 (ackFrame State.reset.cfg 127#7)).mem.rx = ackFrame State.reset.cfg 127#7 := by decide

theorem witness_DatchkAcceptsExactlyDataPackets :
    (∃ t, exec .datchk (withRx 0 packet0) = .next t ∧ t.datres = 1#3)
      ∧ (withRx 0 packet0).mem.rx = [START, pvEncode 3, 0x20#8, 0x44#8] ++ []
        ++ [checksum ((pvEncode 3).toNat + (0x20#8).toNat + (0x44#8).toNat + byteSum []), EOL]
      ∧ unescapePayload [] = some [] := ⟨⟨_, rfl, by decide⟩, by decide, rfl⟩

theorem witness_ReceivedSumsAreExact :
    State.reset.cfg.wf = true ∧ (withRx 0 packet0).mem.wf State.reset.cfg = true ∧ (withRx 0 packet0).mem.rx.length = 6
      ∧ (∃ t, exec .datchk (withRx 0 packet0) = .next t ∧ t.datres = 1#3)
      ∧ ∃ t, exec .datchk (withRx 0 ack0) = .next t ∧ t.datres = 6#3 :=
  ⟨default_wf, by decide, by decide, ⟨_, rfl, by decide⟩, _, rfl, by decide⟩

theorem witness_PayloadDecoderIsLenient : ESC_CHAR ∉ [0xA3#8, 0x0D#8] ∧ ESC_CHAR ∉ ([] : List Byte) := by decide

theorem witness_BuildThenDatchkRoundTrips :
    (withChunk 127 (List.replicate 100 0x9F#8)).cfg.wf = true ∧ (List.replicate 100 0x9F#8).length ≤ State.reset.cfg.maxChunk.toNat
      ∧ ∃ t, exec .build (withChunk 127 (List.replicate 100 0x9F#8)) = .next t := ⟨default_wf, by decide, _, rfl⟩

theorem witness_FirstFaultCauseIsKept :
    (withProgram [.command 0#32]).program = .command 0#32 :: [] ∧ decodeCmd 0#32 = .fault .illegalOpcode
      ∧ (withProgram [.command 0x01010000#32]).program = .command 0x01010000#32 :: []
      ∧ decodeCmd 0x01010000#32 = .fault .reservedField := by decide

theorem witness_FaultIsSticky :
    let s : State := { withProgram [.command 0#32] with status := 0x07#8 }
    s.status.toNat % 2 = 1 ∧ (∃ t, step s = .next t) ∧ ∀ rest, s.program ≠ .reset :: rest :=
  ⟨by decide, ⟨_, rfl⟩, fun _ h => by cases h⟩

theorem witness_FaultsArePrecise :
    commandFault 0#32 State.reset = some .illegalOpcode ∧ commandFault 0x01010000#32 State.reset = some .reservedField
      ∧ commandFault 0x41000041#32 (withChunk 0 (List.replicate 100 1#8)) = some .chunkOverflow
      ∧ commandFault 0x51000041#32 (withRx 0 (List.replicate 206 1#8)) = some .rxOverflow
      ∧ commandFault 0x41000041#32 (withChunk 0 (List.replicate 99 1#8)) = none
      ∧ commandFault 0x51000041#32 (withRx 0 (List.replicate 205 1#8)) = none ∧ commandFault 0x42000000#32 State.reset = none := by
  decide

/-- Every register the statement names does change under a command it lists. -/
theorem witness_RegistersWrittenOnlyAsTabled :
    answers (exec .seqinc State.reset) (fun t => t.seq != State.reset.seq) = true
      ∧ answers (exec (.escenc 0x0D#8) State.reset) (fun t => t.out != State.reset.out && t.outn != State.reset.outn) = true
      ∧ answers (exec .build State.reset) (fun t => t.sum != State.reset.sum && t.mem.pkt != State.reset.mem.pkt) = true
      ∧ answers (exec .ackchk State.reset) (fun t => t.ackres != State.reset.ackres) = true
      ∧ answers (exec .datchk State.reset) (fun t => t.datres != State.reset.datres) = true
      ∧ answers (exec .datchk (withRx 0 [0x01#8, 0x25#8, 0x23#8, 0x44#8, 0x48#8, 0x69#8, 0x5D#8, 0x0D#8]))
        (fun t => t.rseq == 3#8 && t.mem.dec == [0x48#8, 0x69#8]) = true
      ∧ answers (exec (.txpush 1#8) State.reset) (fun t => t.mem.chunk != State.reset.mem.chunk) = true
      ∧ answers (exec (.rxpush 1#8) State.reset) (fun t => t.mem.rx != State.reset.mem.rx) = true
      ∧ answers (exec (.txpush 1#8) (withChunk 0 (List.replicate 100 1#8))) (fun t => t.status != 0#8) = true := by decide

theorem witness_CommandsIgnoreStatusAndHost : ∃ t, exec .build (withChunk 3 [0x41#8]) = .next t := ⟨_, rfl⟩

theorem witness_ResetInputRestoresTheResetState : (withProgram [.reset, .readReg 0]).program = .reset :: [.readReg 0] := rfl

theorem witness_ResetRegistersReadAsTabled : (11 : Nat) ≤ 11 ∧ State.reset.readReg 11 = some 0#16 := by decide

theorem witness_ResetMeetsTheInvariant : ({ Config.default with maxChunk := 110#8 } : Config).wf = true := by decide

theorem reset_inv : State.reset.Inv := ⟨default_wf, rfl, rfl, Nat.zero_le 5, by decide, .inl rfl⟩

theorem witness_EveryStepKeepsTheInvariant : State.reset.Inv ∧ ∃ t, step State.reset = .next t := ⟨reset_inv, _, rfl⟩

theorem witness_ReadPortGivesRegistersAndEntries :
    (withRx 3 ack0).cfg.wf = true ∧ (withRx 3 ack0).mem.wf (withRx 3 ack0).cfg = true := by decide

theorem witness_ReadsHaveNoSideEffect :
    (withProgram [.readReg 15]).program = .readReg 15 :: [] ∧ (withProgram [.readReg 16]).program = .readReg 16 :: []
      ∧ (withProgram [.readBuf .dec 0]).program = .readBuf .dec 0 :: [] := by decide

theorem witness_PushedByteReadsBack :
    (withChunk 0 (List.replicate 99 1#8)).mem.chunk.length < State.reset.cfg.maxChunk.toNat
      ∧ (∃ t, exec (.txpush 2#8) (withChunk 0 (List.replicate 99 1#8)) = .next t)
      ∧ (withRx 0 (List.replicate 205 1#8)).mem.rx.length < 2 * State.reset.cfg.maxChunk.toNat + 6
      ∧ ∃ t, exec (.rxpush 2#8) (withRx 0 (List.replicate 205 1#8)) = .next t :=
  ⟨by decide, ⟨_, exec_txpush _ _⟩, by decide, _, exec_rxpush _ _⟩

/-- The start of a transfer, a packet in flight and both ends conform. -/
theorem witness_ConformingHostNeverFaults :
    State.reset.Conforming ∧ (inFlight .sendWrite 0#3 3).Conforming ∧ (inFlight .recvDispatch 1#3 0).Conforming
      ∧ ({ State.reset with host := { Controller.init with hpc := .done, outcome := some .fullySent } } : State).Conforming
      ∧ ({ State.reset with host := { Controller.init with hpc := .abort, outcome := some (.abortedTransport 0) } } : State).Conforming :=
  ⟨⟨default_wf, rfl, trivial⟩, ⟨default_wf, rfl, inFlight_attempting _ _ _ (by decide)⟩,
    ⟨default_wf, rfl, inFlight_attempting _ _ _ (by decide), .inl rfl⟩, ⟨default_wf, rfl, rfl, rfl⟩,
    ⟨default_wf, rfl, _, rfl, by decide, by decide⟩⟩

theorem witness_ConformingTransferEnds : State.reset.Conforming := witness_ConformingHostNeverFaults.1

theorem witness_HostAdvancesSeqOnlyInAdvance :
    let s : State := { State.reset with host := { Controller.init with hpc := .advSeqinc, file := some [] } }
    State.reset.Conforming ∧ (∃ t, step State.reset = .next t) ∧ s.Conforming ∧ s.host.hpc = .advSeqinc ∧ ∃ t, step s = .next t :=
  ⟨witness_ConformingTransferEnds, ⟨_, rfl⟩, ⟨default_wf, rfl, [], rfl, rfl⟩, rfl, _, rfl⟩

theorem witness_EveryByteIsAccountedFor :
    let s : State := { State.reset with
      host := { Controller.init with hpc := .completeWrite }, env := { Env.init with writes := [.success 1] } }
    (inFlight .advAccount 1#3 0).Conforming ∧ (∃ t, step (inFlight .advAccount 1#3 0) = .next t)
      ∧ (inFlight .advAccount 1#3 0).host.hpc ≠ .idleInit
      ∧ s.Conforming ∧ s.host.hpc ≠ .idleInit ∧ ∃ t, step s = .next t ∧ t.host.outcome = some .fullySent :=
  ⟨⟨default_wf, rfl, inFlight_attempting _ _ _ (by decide)⟩, ⟨_, rfl⟩, by decide, ⟨default_wf, rfl, rfl⟩, by decide, _, rfl, rfl⟩

/-- An empty read, a negative acknowledgment, an unexpected type and a stale acknowledgment are retryable. -/
theorem witness_RetryCapEndsTheTransfer :
    let s : State := { inFlight .sendWrite 0#3 0 with
      env := { Env.init with
        reads := [[], [0x01#8, 0x23#8, 0x20#8, 0x4E#8, 0x33#8, 0x0D#8], [0x01#8, 0x23#8, 0x20#8, 0x45#8, 0x2A#8, 0x0D#8],
          [0x01#8, 0x23#8, 0x21#8, 0x59#8, 0x3F#8, 0x0D#8]]
        writes := [.success 7, .success 0, .success 7, .success 7] } }
    s.Conforming ∧ s.host.hpc = .sendWrite ∧ s.host.retryCount = 0
      ∧ (∀ r ∈ s.env.reads, retryable (ackCode (decodeAck s.cfg (r.take 6) s.seqByte)) = true)
      ∧ s.env.writes = .success 7 :: .success 0 :: .success 7 :: .success 7 :: [] :=
  ⟨⟨default_wf, rfl, inFlight_attempting .sendWrite 0#3 0 (by decide)⟩, rfl, rfl, by decide, rfl⟩

/-- Files of no byte, of one byte and of one byte more than a chunk of one. -/
theorem witness_WholeFileIsSentInOrder :
    let start (c : Config) (file : List Byte) (counts : List Nat) : State :=
      { State.resetWith c with
        env := { Env.init with
          opens := [some file], reads := ackFrames c (counts.length - 1) 0#7, writes := counts.map .success } }
    let meets (c : Config) (file : List Byte) (counts : List Nat) : Prop :=
      let n := (file.length + c.maxChunk.toNat - 1) / c.maxChunk.toNat
      let s := start c file counts
      s.cfg.wf = true ∧ s.program = [] ∧ s.host.hpc = .idleSeqrst ∧ s.env.opens = some file :: []
        ∧ s.env.reads = ackFrames s.cfg n 0#7 ++ [] ∧ counts.length = n + 1 ∧ s.env.writes = counts.map .success ++ []
    meets Config.default [] [1] ∧ meets Config.default [0x41#8] [7, 1]
      ∧ meets { Config.default with maxChunk := 1#8 } [0x41#8, 0x42#8] [7, 0, 1] := by decide

theorem witness_ZeroByteFileSendsOnlyEtx :
    let s : State := { State.reset with env := { Env.init with opens := [some []], writes := [.success 0] } }
    s.program = [] ∧ s.host.hpc = .idleSeqrst ∧ s.env.opens = some [] :: [] ∧ s.env.writes = .success 0 :: [] := by decide

theorem witness_WriteErrorAbortsTheTransfer :
    let s (p : Hpc) (a : WriteResult) : State := { inFlight p 0#3 0 with env := { Env.init with writes := [a] } }
    let meets (p : Hpc) (a : WriteResult) : Prop :=
      (s p a).program = [] ∧ ((s p a).host.hpc = .sendWrite ∨ (s p a).host.hpc = .completeWrite) ∧ (s p a).env.writes = a :: []
    meets .sendWrite .error ∧ meets .sendWrite (.success 0) ∧ meets .completeWrite .error ∧ meets .completeWrite (.success 0) := by
  decide

theorem witness_RetryableResultsAreCountedAndResent :
    (inFlight .recvDispatch 1#3 0).Conforming ∧ (inFlight .recvDispatch 5#3 2).Conforming ∧ (inFlight .recvDispatch 2#3 3).Conforming
      ∧ (inFlight .recvDispatch 2#3 3).host.hpc = .recvDispatch ∧ (inFlight .recvDispatch 2#3 3).host.retryCount + 1 = 4 :=
  ⟨⟨default_wf, rfl, inFlight_attempting _ _ _ (by decide), .inl rfl⟩,
    ⟨default_wf, rfl, inFlight_attempting _ _ _ (by decide), .inr (by decide)⟩,
    ⟨default_wf, rfl, inFlight_attempting _ _ _ (by decide), .inr (by decide)⟩, rfl, rfl⟩

theorem witness_TerminalHostTakesNoStep :
    (inFlight .done 0#3 0).program = [] ∧ (inFlight .done 0#3 0).host.hpc = .done ∧ (inFlight .abort 0#3 0).host.hpc = .abort := by
  decide

end Sys2Proof.Tests
end

section
/-! SUPPORT. What the invariant needs of the pure functions: the escaped chunk, the disassembled payload, the scalar results and the
ACKRES codes stay within their bounds. -/

namespace Sys2Proof.Machine

/-- A chunk at most doubles when it is escaped (R102). -/
theorem escaped_length_le (c : List Byte) : (escaped c).length ≤ 2 * c.length := by
  induction c with
  | nil => simp
  | cons b bs ih =>
    have hb := escExpand_length_le b
    simp only [escaped_cons, List.length_append, List.length_cons]
    omega

/-- A packet of a chunk within CHUNK's capacity is within PKT's (R8). -/
theorem dataPacket_length_le_capacity {c : Config} {chunk : List Byte} (seq fType : Byte)
    (h : chunk.length ≤ capacity c .chunk) : (dataPacket seq fType (escaped chunk)).length ≤ capacity c .pkt := by
  have hesc := escaped_length_le chunk
  rw [dataPacket_length]
  simp only [capacity] at *
  omega

/-- Unescaping a payload never makes it longer (R185). -/
theorem unescapePayload_length_le (p : List Byte) :
    ∀ {out : List Byte}, unescapePayload p = some out → out.length ≤ p.length := by
  induction p using unescapePayload.induct with
  | case1 => simp [unescapePayload]
  | case2 => simp [unescapePayload]
  | case3 b hb => simp [unescapePayload, hb]
  | case4 e rest ih =>
    intro out h
    obtain ⟨tail, htail, rfl⟩ : ∃ tail, unescapePayload rest = some tail ∧ unescape e :: tail = out := by
      simpa [unescapePayload] using h
    have := ih htail
    simp only [List.length_cons]
    omega
  | case5 b e rest hb ih =>
    intro out h
    obtain ⟨tail, htail, rfl⟩ : ∃ tail, unescapePayload (e :: rest) = some tail ∧ b :: tail = out := by
      simpa [unescapePayload, hb] using h
    have := ih htail
    simp only [List.length_cons] at *
    omega

/-- The bytes from i up to j are at most j − i (R12). -/
theorem slice_length_le (f : List Byte) (i j : Nat) : (slice f i j).length ≤ j - i :=
  List.length_take_le _ _

/-- An accepted frame's payload is what unescapes from between its type byte and its checksum (R181). -/
theorem unescapePayload_of_decodeData_ok {fType : Byte} {f : List Byte} {v : Nat} {q : Byte} {out : List Byte}
    (h : decodeData fType f = .ok v q out) : unescapePayload (slice f 4 (f.length - 2)) = some out := by
  unfold decodeData at h
  dsimp only at h
  split at h
  · cases h
  split at h
  case h_2 => cases h
  -- the checks of START, length, EOL, checksum and type: each one that fails answers no payload
  iterate 5 (split at h; · cases h)
  split at h
  · cases h
  · cases h; assumption

/-- A payload accepted from a frame within RX's capacity is within DEC's (R8, R185). -/
theorem decodeData_ok_length_le_capacity {c : Config} {f : List Byte} {v : Nat} {q : Byte} {out : List Byte}
    (hf : f.length ≤ capacity c .rx) (h : decodeData c.typeData f = .ok v q out) : out.length ≤ capacity c .dec := by
  have hout := unescapePayload_length_le _ (unescapePayload_of_decodeData_ok h)
  have hslice := slice_length_le f 4 (f.length - 2)
  simp only [capacity] at *
  omega

/-- ACKCHK leaves no code above 5 (R24). -/
theorem ackCode_le (r : AckResult) : (ackCode r).toNat ≤ 5 := by cases r <;> decide

/-- A one-byte result agrees with OUTN 1 (R22). -/
theorem outLegal_byte (v : Byte) : outLegal (v.setWidth 16) 1#2 = true := by revert v; decide

/-- Any OUT agrees with OUTN 2 (R22). -/
theorem outLegal_pair (v : Word16) : outLegal v 2#2 = true := rfl

/-- An OUT of 0 agrees with OUTN 0 (R22, R290). -/
theorem outLegal_none : outLegal 0#16 0#2 = true := by decide

/-- The empty buffers have no valued entry (R31, R290). -/
theorem Memory.read_empty (b : BufName) (i : Nat) : Memory.empty.read b i = none := by cases b <;> rfl

end Sys2Proof.Machine
end

section
/-! SUPPORT. The BLOCK's invariant, one rule per update: the updates it does not look at leave it, and each of the others asks for
just what it writes. -/

namespace Sys2Proof.Machine

/-! ### Its parts -/

theorem State.Inv.cfg_wf {s : State} (h : s.Inv) : s.cfg.wf = true := by
  obtain ⟨hcfg, -⟩ := h
  exact hcfg

theorem State.Inv.mem_wf {s : State} (h : s.Inv) : s.mem.wf s.cfg = true := by
  obtain ⟨-, hmem, -⟩ := h
  exact hmem

theorem State.Inv.status_legal {s : State} (h : s.Inv) : statusLegal s.status = true := by
  obtain ⟨-, -, hstatus, -⟩ := h
  exact hstatus

theorem State.Inv.packet_whole {s : State} (h : s.Inv) : packetWhole s.cfg s.mem.pkt := by
  obtain ⟨-, -, -, -, -, hpkt⟩ := h
  exact hpkt

/-- Every buffer is within its capacity (R8, R30). -/
theorem State.Inv.buf_length_le {s : State} (h : s.Inv) (b : BufName) : (s.mem.buf b).length ≤ capacity s.cfg b :=
  (Memory.wf_iff _ _).1 h.mem_wf b

/-! ### Updates the invariant does not look at -/

@[simp] theorem State.inv_setSeq (s : State) (v : BitVec 7) : (s.setSeq v).Inv ↔ s.Inv := Iff.rfl
@[simp] theorem State.inv_setSum (s : State) (v : Nat) : (s.setSum v).Inv ↔ s.Inv := Iff.rfl
@[simp] theorem State.inv_setDatres (s : State) (v : BitVec 3) : (s.setDatres v).Inv ↔ s.Inv := Iff.rfl
@[simp] theorem State.inv_setRseq (s : State) (v : Byte) : (s.setRseq v).Inv ↔ s.Inv := Iff.rfl
@[simp] theorem State.inv_setHost (s : State) (h : Controller) : (s.setHost h).Inv ↔ s.Inv := Iff.rfl
@[simp] theorem State.inv_setEnv (s : State) (e : Env) : (s.setEnv e).Inv ↔ s.Inv := Iff.rfl
@[simp] theorem State.inv_setProgram (s : State) (p : List PortAction) : (s.setProgram p).Inv ↔ s.Inv := Iff.rfl
@[simp] theorem State.inv_setReadData (s : State) (r : ReadData) : (s.setReadData r).Inv ↔ s.Inv := Iff.rfl

@[simp] theorem State.inv_noteSum (s : State) (o : Option Nat) : (s.noteSum o).Inv ↔ s.Inv := by cases o <;> exact Iff.rfl

/-! ### Updates that write what the invariant bounds -/

/-- A legal STATUS may be written. -/
theorem State.Inv.setStatus {s : State} (h : s.Inv) {v : BitVec 8} (hv : statusLegal v = true) : (s.setStatus v).Inv := by
  obtain ⟨hcfg, hmem, -, hack, hout, hpkt⟩ := h
  exact ⟨hcfg, hmem, hv, hack, hout, hpkt⟩

/-- An OUT and an OUTN in agreement may be written. -/
theorem State.Inv.setOut {s : State} (h : s.Inv) {v : Word16} {n : BitVec 2} (hv : outLegal v n = true) :
    (s.setOut v n).Inv := by
  obtain ⟨hcfg, hmem, hstatus, hack, -, hpkt⟩ := h
  exact ⟨hcfg, hmem, hstatus, hack, hv, hpkt⟩

/-- An ACKRES code in use may be written. -/
theorem State.Inv.setAckres {s : State} (h : s.Inv) {v : BitVec 3} (hv : v.toNat ≤ 5) : (s.setAckres v).Inv := by
  obtain ⟨hcfg, hmem, hstatus, -, hout, hpkt⟩ := h
  exact ⟨hcfg, hmem, hstatus, hv, hout, hpkt⟩

/-- Buffers within capacity, with a whole packet in PKT, may be written. -/
theorem State.Inv.setMem {s : State} (h : s.Inv) {m : Memory} (hm : m.wf s.cfg = true) (hp : packetWhole s.cfg m.pkt) :
    (s.setMem m).Inv := by
  obtain ⟨hcfg, -, hstatus, hack, hout, -⟩ := h
  exact ⟨hcfg, hm, hstatus, hack, hout, hp⟩

/-- A buffer other than PKT may be given any entries within its capacity. -/
theorem State.Inv.setBuf {s : State} (h : s.Inv) {b : BufName} {bs : List Byte} (hb : .pkt ≠ b)
    (hlen : bs.length ≤ capacity s.cfg b) : (s.setMem (s.mem.setBuf b bs)).Inv := by
  have hpkt : (s.mem.setBuf b bs).pkt = s.mem.pkt := Memory.buf_setBuf_other s.mem bs hb
  exact h.setMem (Memory.wf_setBuf h.mem_wf hlen) (hpkt ▸ h.packet_whole)

/-! ### The shared operations keep it -/

/-- A recorded fault leaves a legal STATUS (R23, R262). -/
theorem State.Inv.recordFault {s : State} (h : s.Inv) (c : FaultCause) : (s.recordFault c).Inv := by
  rw [recordFault_eq]
  apply h.setStatus
  split
  · exact statusWord_legal c
  · exact h.status_legal

theorem State.Inv.outByte {s : State} (h : s.Inv) (v : Byte) : (s.outByte v).Inv := h.setOut (outLegal_byte v)

theorem State.Inv.outPair {s : State} (h : s.Inv) (first second : Byte) : (s.outPair first second).Inv :=
  h.setOut (outLegal_pair _)

theorem State.Inv.clear {s : State} (h : s.Inv) {b : BufName} (hb : .pkt ≠ b) : (s.setMem (s.mem.clear b)).Inv :=
  h.setBuf hb (Nat.zero_le _)

/-- A push appends to a buffer that is not full and records its fault at a full one (R141, R161). -/
theorem State.Inv.pushOrFault {s : State} (h : s.Inv) (b : BufName) (v : Byte) (c : FaultCause) (hb : .pkt ≠ b) :
    (if (s.mem.buf b).length = capacity s.cfg b then s.recordFault c else s.setMem (s.mem.push b v)).Inv := by
  have hle := h.buf_length_le b
  split
  · exact h.recordFault c
  · refine h.setBuf hb ?_
    rw [List.length_append, List.length_singleton]
    omega

/-- An accepted payload within DEC's capacity, or none, may be stored (R182). -/
theorem State.Inv.storePayload {s : State} (h : s.Inv) {r : DataResult}
    (hr : ∀ v q out, r = .ok v q out → out.length ≤ capacity s.cfg .dec) : (s.storePayload r).Inv := by
  cases r with
  | ok v q out => exact (State.inv_setRseq _ q).2 (h.setBuf (by decide) (hr v q out rfl))
  | _ => exact h.clear (by decide)

/-- The reset state of a legal build meets the invariant (R290). -/
theorem inv_resetWith {c : Config} (h : c.wf = true) : (State.resetWith c).Inv :=
  ⟨h, Memory.wf_empty c, rfl, Nat.zero_le 5, outLegal_none, .inl rfl⟩

/-- RESET meets the invariant again: the build constants stay (R290). -/
theorem State.Inv.blockReset {s : State} (h : s.Inv) : s.blockReset.Inv := inv_resetWith h.cfg_wf

end Sys2Proof.Machine
end

section
/-! SUPPORT. What a host's step can answer, said once: one BLOCK command, or a move of the session and the collaborators alone, or no
move (spec/48_host_controller.md R220 to R233). -/

namespace Sys2Proof.Machine

/-- The three forms of the Transfer Controller's step from s. -/
inductive HostAnswer (s : State) : Host.Outcome State Fault Refusal → Prop where
  /-- It issues one command's word, with the session moved on. -/
  | issues (i : Instr) (h : Controller) : HostAnswer s (issue (encode i) (s.setHost h))
  /-- Only the session and the collaborators move. -/
  | moves (e : Env) (h : Controller) : HostAnswer s (.next ((s.setEnv e).setHost h))
  /-- No rule gives a move (R228, R239). -/
  | stuck (r : Fault) : HostAnswer s (.fault r)

/-- A move of the session alone. -/
theorem HostAnswer.movesHost (s : State) (h : Controller) : HostAnswer s (.next (s.setHost h)) := .moves s.env h

theorem ctlOpen_answer (s : State) : HostAnswer s (ctlOpen s) := by
  unfold ctlOpen
  split <;> exact .moves _ _

theorem ctlInit_answer (s : State) : HostAnswer s (ctlInit s) := by
  unfold ctlInit
  split
  · exact .stuck _
  · exact .movesHost s _

theorem ctlChunkRead_answer (s : State) : HostAnswer s (ctlChunkRead s) := by
  unfold ctlChunkRead
  split
  · exact .stuck _
  · split
    · exact .stuck _
    · exact .movesHost s _

theorem ctlChunkFill_answer (s : State) : HostAnswer s (ctlChunkFill s) := by
  unfold ctlChunkFill
  split <;> exact .issues _ _

theorem ctlSend_answer (s : State) : HostAnswer s (ctlSend s) := by
  unfold ctlSend
  split <;> exact .moves _ _

theorem ctlRecvFill_answer (s : State) : HostAnswer s (ctlRecvFill s) := by
  unfold ctlRecvFill
  split <;> exact .issues _ _

theorem ctlDispatch_answer (s : State) : HostAnswer s (ctlDispatch s) := by
  unfold ctlDispatch
  split
  · exact .movesHost s _
  · split
    · exact .movesHost s _
    · exact .stuck _

theorem ctlRetryDecide_answer (s : State) : HostAnswer s (ctlRetryDecide s) := by
  unfold ctlRetryDecide
  split <;> exact .movesHost s _

theorem ctlComplete_answer (s : State) : HostAnswer s (ctlComplete s) := by
  unfold ctlComplete
  split <;> exact .moves _ _

/-- Every step of the Transfer Controller has one of the three forms, at each of its positions. -/
theorem ctlStep_answer (s : State) : HostAnswer s (ctlStep s) := by
  unfold ctlStep
  cases s.host.hpc with
  | idleSeqrst | chunkClear | recvClear | advSeqinc => exact .issues _ _
  | idleOpen => exact ctlOpen_answer s
  | idleInit => exact ctlInit_answer s
  | chunkRead => exact ctlChunkRead_answer s
  | chunkFill => exact ctlChunkFill_answer s
  | sendWrite => exact ctlSend_answer s
  | recvRead => exact .moves _ _
  | recvFill => exact ctlRecvFill_answer s
  | recvDispatch => exact ctlDispatch_answer s
  | retryDecide => exact ctlRetryDecide_answer s
  | completeWrite => exact ctlComplete_answer s
  | idleGoto | chunkSize | chunkRetryZero | chunkGoto | recvDelay | advAccount | advRetryZero | advGoto | retryCount | retryLog
  | done | abort => exact .movesHost s _

end Sys2Proof.Machine
end

section
/-! PROOFS. The BLOCK's invariant is kept by every command, every port action and every host step (O44), and holds at reset (O45). -/

namespace Sys2Proof.Machine

/-- Every next state this outcome answers meets the invariant. -/
def AnswersInv (o : Host.Outcome State Fault Refusal) : Prop := ∀ t, o = .next t → t.Inv

theorem AnswersInv.next {t : State} (h : t.Inv) : AnswersInv (.next t) := fun _ he => by cases he; exact h
theorem AnswersInv.fault (r : Fault) : AnswersInv (.fault r) := fun _ he => by cases he
theorem AnswersInv.refused (r : Refusal) : AnswersInv (.refused r) := fun _ he => by cases he

/-- BUILD puts one whole packet in PKT, within its capacity (R32, R142). -/
theorem State.Inv.build {s : State} (h : s.Inv) : AnswersInv (exec .build s) := by
  have hchunk := h.buf_length_le .chunk
  rw [exec_build]
  refine .next ((State.inv_setSum _ _).2 (h.setMem ?_ ?_))
  · exact Memory.wf_replace h.mem_wf (dataPacket_length_le_capacity _ _ hchunk)
  · exact .inr ⟨s.seq, s.mem.chunk, hchunk, rfl⟩

/-- DATCHK stores a payload within DEC's capacity, or none (R182). -/
theorem State.Inv.datchk {s : State} (h : s.Inv) : AnswersInv (exec .datchk s) := by
  rw [exec_datchk]
  refine .next (State.Inv.storePayload (by simpa using h) fun v q out hr => ?_)
  simpa using decodeData_ok_length_le_capacity (h.buf_length_le .rx) hr

/-- Every command keeps the invariant. -/
theorem State.Inv.exec {s : State} (h : s.Inv) (i : Instr) : AnswersInv (exec i s) := by
  cases i with
  | seqrst | seqinc => exact .next h
  | esctst | escdec | tochar | unchar | cksum => exact .next (h.outByte _)
  | escenc b =>
    rw [exec_escenc]
    refine .next ?_
    split
    · exact h.outByte _
    · split <;> exact h.outPair _ _
  | txclr | rxclr => exact .next (h.clear (by decide))
  | txpush b => rw [exec_txpush]; exact .next (h.pushOrFault .chunk b _ (by decide))
  | rxpush b => rw [exec_rxpush]; exact .next (h.pushOrFault .rx b _ (by decide))
  | build => exact h.build
  | ackchk => exact .next ((State.inv_noteSum _ _).2 (h.setAckres (ackCode_le _)))
  | datchk => exact h.datchk

/-- Every word at the command port, a command's or not, keeps it (R262). -/
theorem State.Inv.issue {s : State} (h : s.Inv) (w : Command) : AnswersInv (issue w s) := by
  cases hd : decodeCmd w with
  | instr i => rw [issue_of_decode hd]; exact h.exec i
  | fault c => rw [issue_of_fault hd]; exact .next (h.recordFault c)

/-- Every port action keeps it: a read or a new session leaves the BLOCK (R55, R221). -/
theorem State.Inv.doPort {s : State} (h : s.Inv) (a : PortAction) : AnswersInv (doPort a s) := by
  cases a with
  | command w => exact h.issue w
  | reset => exact .next h.blockReset
  | readReg | readBuf => exact .next h
  | startTransfer =>
    rw [Machine.doPort]
    split
    · exact .next h
    · exact .refused _

/-- Every answer of the host keeps it: the host reaches the BLOCK through commands alone (R220). -/
theorem State.Inv.hostAnswer {s : State} (h : s.Inv) {o : Host.Outcome State Fault Refusal} (ho : HostAnswer s o) :
    AnswersInv o := by
  cases ho with
  | issues i c => exact ((State.inv_setHost s c).2 h).issue (encode i)
  | moves e c => exact .next h
  | stuck r => exact .fault r

/-- Every step of the machine keeps it. -/
theorem State.Inv.step {s : State} (h : s.Inv) : AnswersInv (step s) := by
  cases hp : s.program with
  | nil => rw [step_controller s hp]; exact h.hostAnswer (ctlStep_answer s)
  | cons a rest => rw [step_port s a rest hp]; exact ((State.inv_setProgram s rest).2 h).doPort a

/-- Settles O44, by cases on what the step performs: a port action, a command or a host's move. -/
theorem everyStepKeepsTheInvariant : Obligations.EveryStepKeepsTheInvariant :=
  fun _ t h hstep => h.step t hstep

/-- Settles O45, by the reset state of every legal build, the default one included. -/
theorem resetMeetsTheInvariant : Obligations.ResetMeetsTheInvariant :=
  ⟨inv_resetWith (by decide), fun _ h => inv_resetWith h⟩

/-- Settles O43, register by register at the read port, and by the empty buffers. -/
theorem resetRegistersReadAsTabled : Obligations.ResetRegistersReadAsTabled := by
  refine ⟨fun n hn => ?_, rfl, fun c => ⟨rfl, rfl, rfl⟩, Memory.read_empty⟩
  interval_cases n <;> rfl

end Sys2Proof.Machine
end

section
/-! SUPPORT. What a command can write, said once for all fifteen: each writes only the registers and buffers that Tables R22 and R30
give it (spec/10_state.md). -/

namespace Sys2Proof.Machine

@[simp] theorem noteSum_datres (s : State) (o : Option Nat) : (s.noteSum o).datres = s.datres := by rw [noteSum_eq]
@[simp] theorem storePayload_status (s : State) (r : DataResult) : (s.storePayload r).status = s.status := by
  rw [storePayload_eq]
@[simp] theorem storePayload_sum (s : State) (r : DataResult) : (s.storePayload r).sum = s.sum := by rw [storePayload_eq]
@[simp] theorem storePayload_datres (s : State) (r : DataResult) : (s.storePayload r).datres = s.datres := by
  rw [storePayload_eq]

/-- The six scalar commands, which answer in OUT and OUTN (Table R22). -/
def IsScalarCommand (i : Instr) : Prop :=
  ∃ b w, i = .esctst b ∨ i = .escenc b ∨ i = .escdec b ∨ i = .tochar b ∨ i = .unchar b ∨ i = .cksum w

/-- What command i can make of s, whatever values it writes. -/
inductive CommandEffect (s : State) : Instr → State → Prop where
  | sequence {i : Instr} (hi : i = .seqrst ∨ i = .seqinc) (v : BitVec 7) : CommandEffect s i (s.setSeq v)
  | scalar {i : Instr} (hi : IsScalarCommand i) (v : Word16) (n : BitVec 2) : CommandEffect s i (s.setOut v n)
  | chunk {i : Instr} (hi : i = .txclr ∨ ∃ b, i = .txpush b) (bs : List Byte) :
    CommandEffect s i (s.setMem { s.mem with chunk := bs })
  | receive {i : Instr} (hi : i = .rxclr ∨ ∃ b, i = .rxpush b) (bs : List Byte) :
    CommandEffect s i (s.setMem { s.mem with rx := bs })
  | overflow {i : Instr} (hi : (∃ b, i = .txpush b) ∨ ∃ b, i = .rxpush b) (c : FaultCause) :
    CommandEffect s i (s.recordFault c)
  | build (bs : List Byte) (v : Nat) : CommandEffect s .build ((s.setMem { s.mem with pkt := bs }).setSum v)
  | ackchk (v : BitVec 3) (o : Option Nat) : CommandEffect s .ackchk ((s.setAckres v).noteSum o)
  | datchk (v : BitVec 3) (o : Option Nat) (r : DataResult) :
    CommandEffect s .datchk (((s.setDatres v).noteSum o).storePayload r)

/-- ESCENC answers in OUT and OUTN, with one byte or two (R111). -/
theorem exec_escenc_setOut (b : Byte) (s : State) : ∃ v n, exec (.escenc b) s = .next (s.setOut v n) := by
  rw [exec_escenc]
  split
  · exact ⟨_, _, rfl⟩
  · split <;> exact ⟨_, _, rfl⟩

/-- Every command has its effect. -/
theorem exec_effect {i : Instr} {s t : State} (h : exec i s = .next t) : CommandEffect s i t := by
  cases i with
  | seqrst => cases h; exact .sequence (.inl rfl) _
  | seqinc => cases h; exact .sequence (.inr rfl) _
  | esctst b | escdec b | tochar b | unchar b => cases h; exact .scalar ⟨b, 0#16, by simp⟩ _ _
  | escenc b =>
    obtain ⟨v, n, hb⟩ := exec_escenc_setOut b s
    cases hb.symm.trans h
    exact .scalar ⟨b, 0#16, by simp⟩ v n
  | cksum w => cases h; exact .scalar ⟨0#8, w, by simp⟩ _ _
  | txclr => cases h; exact .chunk (.inl rfl) _
  | txpush b =>
    cases (exec_txpush b s).symm.trans h
    split
    · exact .overflow (.inl ⟨b, rfl⟩) _
    · exact .chunk (.inr ⟨b, rfl⟩) _
  | build => cases h; exact .build _ _
  | rxclr => cases h; exact .receive (.inl rfl) _
  | rxpush b =>
    cases (exec_rxpush b s).symm.trans h
    split
    · exact .overflow (.inr ⟨b, rfl⟩) _
    · exact .receive (.inr ⟨b, rfl⟩) _
  | ackchk => cases h; exact .ackchk _ _
  | datchk => cases h; exact .datchk _ _ _

/-- Settles O40, by cases on the command's effect. -/
theorem registersWrittenOnlyAsTabled : Obligations.RegistersWrittenOnlyAsTabled := by
  intro i s t h
  cases exec_effect h with
  | sequence hi | chunk hi | receive hi => simp [hi]
  | scalar hi => exact ⟨by simp, fun _ => hi, by simp⟩
  | overflow hi => simp [hi, recordFault_eq]
  | build => simp
  | ackchk => simp [noteSum_eq]
  | datchk => simp [noteSum_eq, storePayload_eq]

end Sys2Proof.Machine
end

section
/-! PROOFS. Once FAULT is 1 only the RESET input changes STATUS (O38): a later fault is not recorded (spec/60_exceptions.md R263), and
the host reaches STATUS through commands alone (spec/48_host_controller.md R220). -/

namespace Sys2Proof.Machine

/-- Every next state this outcome answers has this STATUS. -/
def AnswersStatus (v : BitVec 8) (o : Host.Outcome State Fault Refusal) : Prop := ∀ t, o = .next t → t.status = v

theorem AnswersStatus.next {v : BitVec 8} {t : State} (h : t.status = v) : AnswersStatus v (.next t) :=
  fun _ he => by cases he; exact h

theorem AnswersStatus.fault (v : BitVec 8) (r : Fault) : AnswersStatus v (.fault r) := fun _ he => by cases he

theorem AnswersStatus.refused (v : BitVec 8) (r : Refusal) : AnswersStatus v (.refused r) := fun _ he => by cases he

/-- A fault after the first is not recorded (R262). -/
theorem recordFault_of_faulted {s : State} (h : s.status.toNat % 2 = 1) (c : FaultCause) : s.recordFault c = s := by
  simp [State.recordFault, faultFlag_eq, h]

theorem exec_status_of_faulted {s : State} (h : s.status.toNat % 2 = 1) (i : Instr) : AnswersStatus s.status (exec i s) := by
  intro t ht
  cases exec_effect ht with
  | sequence | scalar | chunk | receive | build => rfl
  | overflow hi c => rw [recordFault_of_faulted h]
  | ackchk => exact noteSum_status _ _
  | datchk => simp

theorem issue_status_of_faulted {s : State} (h : s.status.toNat % 2 = 1) (w : Command) :
    AnswersStatus s.status (issue w s) := by
  cases hd : decodeCmd w with
  | instr i => rw [issue_of_decode hd]; exact exec_status_of_faulted h i
  | fault c => rw [issue_of_fault hd, recordFault_of_faulted h]; exact .next rfl

/-- Of the port actions only RESET can change it. -/
theorem doPort_status_of_faulted {s : State} (h : s.status.toNat % 2 = 1) {a : PortAction} (ha : a ≠ .reset) :
    AnswersStatus s.status (doPort a s) := by
  cases a with
  | command w => exact issue_status_of_faulted h w
  | reset => exact absurd rfl ha
  | readReg | readBuf => exact .next rfl
  | startTransfer =>
    rw [doPort]
    split
    · exact .next rfl
    · exact .refused _ _

theorem hostAnswer_status_of_faulted {s : State} (h : s.status.toNat % 2 = 1) {o : Host.Outcome State Fault Refusal}
    (ho : HostAnswer s o) : AnswersStatus s.status o := by
  cases ho with
  | issues i c => exact issue_status_of_faulted (s := s.setHost c) h (encode i)
  | moves e c => exact .next rfl
  | stuck r => exact .fault _ r

/-- Settles O38, by cases on what the step performs: a port action or a host's step. -/
theorem faultIsSticky : Obligations.FaultIsSticky := by
  intro s t h hstep hreset
  cases hp : s.program with
  | nil => exact hostAnswer_status_of_faulted h (ctlStep_answer s) t (step_controller s hp ▸ hstep)
  | cons a rest =>
    have ha : a ≠ .reset := fun he => hreset rest (he ▸ hp)
    exact doPort_status_of_faulted (s := s.setProgram rest) h ha t (step_port s a rest hp ▸ hstep)

end Sys2Proof.Machine
end

section
/-! PROOFS. The read port (O46): under legal build constants a length register holds its buffer's length without wrapping (R8, R30),
so it bounds exactly the readable entries (spec/20_memory.md R55). -/

namespace Sys2Proof.Machine

/-- A legal build's buffers are at most this long: 110 and 2 · 110 + 6 entries (R8, R9). -/
theorem buf_length_bounds {c : Config} {m : Memory} (hc : c.wf = true) (hm : m.wf c = true) :
    m.chunk.length ≤ 110 ∧ m.pkt.length ≤ 226 ∧ m.rx.length ≤ 226 ∧ m.dec.length ≤ 220 := by
  obtain ⟨-, hmax, -⟩ := Config.wf_bounds hc
  have hbuf := (Memory.wf_iff c m).1 hm
  have hchunk := hbuf .chunk
  have hpkt := hbuf .pkt
  have hrx := hbuf .rx
  have hdec := hbuf .dec
  simp only [Memory.buf_chunk, Memory.buf_pkt, Memory.buf_rx, Memory.buf_dec, capacity] at *
  omega

/-- No length register wraps. -/
theorem lengthRegs_toNat {s : State} (hc : s.cfg.wf = true) (hm : s.mem.wf s.cfg = true) :
    s.chunkLen.toNat = s.mem.chunk.length ∧ s.pktLen.toNat = s.mem.pkt.length ∧ s.rxLen.toNat = s.mem.rx.length
      ∧ s.decLen.toNat = s.mem.dec.length := by
  have := buf_length_bounds hc hm
  simp only [State.chunkLen, State.pktLen, State.rxLen, State.decLen, BitVec.toNat_ofNat]
  omega

/-- The read port answers for the numbers up to 15 alone (R29, R55). -/
theorem readReg_isSome_iff (s : State) (n : Nat) : (s.readReg n).isSome = true ↔ n ≤ 15 := by
  rw [State.readReg, Option.isSome_map]
  constructor
  · intro h
    by_contra hn
    rw [regOfNumber] at h
    · cases h
    all_goals omega
  · intro hn
    interval_cases n <;> rfl

/-- A register of at most 16 bits reads with its own value (R55). -/
theorem readReg_toNat {s : State} {n w : Nat} {v : BitVec w} (h : s.readReg n = some (v.setWidth 16))
    (hw : w ≤ 16 := by decide) : (s.readReg n).map BitVec.toNat = some v.toNat := by
  rw [h, Option.map_some, BitVec.toNat_setWidth_of_le hw]

/-- A buffer reads entry by entry, and is refused exactly from its length n on (R31, R55). -/
theorem readBuf_below_length (s : State) (b : BufName) {n : Nat} (hn : n = (s.mem.buf b).length) (i : Nat) :
    s.readBuf b i = (s.mem.buf b)[i]? ∧ (s.readBuf b i = none ↔ n ≤ i) :=
  ⟨rfl, hn ▸ List.getElem?_eq_none_iff⟩

/-- Settles O46, register by register and buffer by buffer: no length register wraps. -/
theorem readPortGivesRegistersAndEntries : Obligations.ReadPortGivesRegistersAndEntries := by
  intro s hc hm
  obtain ⟨hchunk, hpkt, hrx, hdec⟩ := lengthRegs_toNat hc hm
  exact ⟨readReg_isSome_iff s, readReg_toNat rfl, readReg_toNat rfl, rfl, readReg_toNat rfl, rfl, hchunk ▸ readReg_toNat rfl,
    hpkt ▸ readReg_toNat rfl, hrx ▸ readReg_toNat rfl, hdec ▸ readReg_toNat rfl, readReg_toNat rfl, readReg_toNat rfl,
    readReg_toNat rfl, readReg_toNat rfl, readReg_toNat rfl, readReg_toNat rfl, readReg_toNat rfl,
    readBuf_below_length s .chunk hchunk, readBuf_below_length s .pkt hpkt, readBuf_below_length s .rx hrx,
    readBuf_below_length s .dec hdec⟩

end Sys2Proof.Machine
end

section
/-! PROOFS. BUILD writes what it does not read, so a second one changes nothing, and the packet carries its sequence number (O26). -/

namespace Sys2Proof.Machine

/-- Byte 2 of a packet is its sequence number, encoded (Table R80). -/
theorem dataPacket_seqField (seq fType : Byte) (p : List Byte) :
    (dataPacket seq fType p)[2]? = some (pvEncode seq.toNat) := rfl

/-- encode is one-to-one on bytes (R122). -/
theorem pvEncode_inj {a b : Byte} (h : pvEncode a.toNat = pvEncode b.toNat) : a = b := by
  have h' := congrArg BitVec.toNat h
  have := a.isLt
  have := b.isLt
  rw [pvEncode_toNat, pvEncode_toNat] at h'
  exact BitVec.eq_of_toNat_eq (by omega)

/-- Packets of different sequence numbers differ (R203). -/
theorem seq_eq_of_dataPacket_eq {q r fType fType' : Byte} {p p' : List Byte}
    (h : dataPacket q fType p = dataPacket r fType' p') : q = r := by
  have hfield := congrArg (·[2]?) h
  simp only [dataPacket_seqField, Option.some.injEq] at hfield
  exact pvEncode_inj hfield

/-- SEQINC always changes SEQ (R201). -/
theorem seqByte_setSeq_succ_ne (s : State) : (s.setSeq (s.seq + 1#7)).seqByte ≠ s.seqByte := by
  intro h
  have h' := congrArg BitVec.toNat h
  have := s.seq.isLt
  simp only [seqByte_toNat, State.setSeq_seq, BitVec.toNat_add, BitVec.toNat_ofNat] at h'
  omega

/-- Settles O26: BUILD reads neither PKT nor SUM, and SEQINC changes the packet's sequence byte. -/
theorem rebuildGivesTheSamePacket : Obligations.RebuildGivesTheSamePacket := by
  intro s t ht
  cases ht
  refine ⟨rfl, fun u v hu hv hpkt => ?_⟩
  rw [exec_seqinc] at hu
  cases hu
  cases hv
  exact seqByte_setSeq_succ_ne _ (seq_eq_of_dataPacket_eq hpkt)

end Sys2Proof.Machine
end

section
/-! PROOFS. The sum a receiving command computes is that of the frame's bytes from 1 up to the checksum (R132), and it fits SUM (R131)
in a frame within RX's capacity (O34). -/

namespace Sys2Proof.Machine

/-- The sum of a 6-byte frame is that of its bytes 1 to 3 (R132). -/
theorem ackSum_of_length_six {f : List Byte} (h : f.length = 6) : ackSum f = some (byteSum (slice f 1 4)) := by
  match f, h with
  | [_, _, _, _, _, _], _ => simp [ackSum, slice, Nat.add_assoc]

/-- The packet's sum is over one run of bytes: the length, sequence and type bytes and the payload (R132). -/
theorem packetSum_eq_byteSum_slice {f : List Byte} {f0 f1 f2 f3 : Byte} {rest : List Byte}
    (hf : f = f0 :: f1 :: f2 :: f3 :: rest) (hlen : 6 ≤ f.length) :
    packetSum f1 f2 f3 (slice f 4 (f.length - 2)) = byteSum (slice f 1 (f.length - 2)) := by
  subst hf
  obtain ⟨k, hk⟩ : ∃ k, rest.length = k + 2 := Nat.exists_eq_add_of_le' (by simpa using hlen)
  simp [packetSum, slice, hk, Nat.add_assoc]

/-- A data check computes no sum or that of the bytes between the start and the checksum (R132, R181). -/
theorem dataSum_decodeData (fType : Byte) (f : List Byte) :
    dataSum (decodeData fType f) = none
      ∨ dataSum (decodeData fType f) = some (byteSum (slice f 1 (f.length - 2))) := by
  match f with
  | [] | [_] | [_, _] | [_, _, _] => exact .inl rfl
  | f0 :: f1 :: f2 :: f3 :: rest =>
    unfold decodeData
    dsimp only
    split
    · exact .inl rfl
    next hlen =>
    -- the checks of START, length and EOL, which come before the sum
    iterate 3 (split; · exact .inl rfl)
    right
    rw [← packetSum_eq_byteSum_slice rfl (Nat.not_lt.1 hlen)]
    -- the checks after it, which all keep it
    split
    · rfl
    split
    · rfl
    split <;> rfl

/-- DATRES 1, or 5 and above, is the code of a check that got as far as the checksum (R25, R181). -/
theorem dataSum_ne_none_of_code {r : DataResult} (h : dataCode r = 1#3 ∨ 5 ≤ (dataCode r).toNat) : dataSum r ≠ none := by
  cases r with
  | badLength | badStart | badTerminator => exact absurd h (by decide)
  | _ => exact Option.some_ne_none _

/-- SUM holds any sum of bytes of a frame within a legal RX (R131). -/
theorem byteSum_slice_lt {c : Config} {m : Memory} (hc : c.wf = true) (hm : m.wf c = true) (i j : Nat) :
    byteSum (slice m.rx i j) < 2 ^ 16 := by
  obtain ⟨-, -, hrx, -⟩ := buf_length_bounds hc hm
  have hslice : (slice m.rx i j).length ≤ m.rx.length :=
    ((List.take_sublist _ _).trans (List.drop_sublist _ _)).length_le
  have := byteSum_le (slice m.rx i j)
  omega

theorem noteSum_some_toNat (s : State) {v : Nat} (h : v < 2 ^ 16) : (s.noteSum (some v)).sum.toNat = v := by
  rw [State.noteSum, State.setSum_sum, BitVec.toNat_ofNat, Nat.mod_eq_of_lt h]

/-- Settles O34: the sum computed is that of the bytes the statement names, and it does not wrap. -/
theorem receivedSumsAreExact : Obligations.ReceivedSumsAreExact := by
  intro s hc hm
  refine ⟨fun t ht hlen => ?_, fun t ht hcode => ?_⟩
  · cases ht
    rw [ackSum_of_length_six hlen]
    exact noteSum_some_toNat _ (byteSum_slice_lt hc hm 1 4)
  · rw [exec_datchk] at ht
    cases ht
    simp only [storePayload_datres, noteSum_datres, State.setDatres_datres] at hcode
    have hsum := (dataSum_decodeData s.cfg.typeData s.mem.rx).resolve_left (dataSum_ne_none_of_code hcode)
    rw [storePayload_sum, hsum]
    exact noteSum_some_toNat _ (byteSum_slice_lt hc hm 1 _)

end Sys2Proof.Machine
end

section
/-! PROOFS. The host's dispatch and its Retry state (spec/48_host_controller.md R228, R231; O57): one equation per action, then the
four of a failed attempt end to end. -/

namespace Sys2Proof.Machine

/-! ### One action each -/

/-- A result of ACKNOWLEDGED goes to Advance (R228). -/
theorem ctlDispatch_of_acknowledged {s : State} (h : s.ackres = ackCode .acknowledged) :
    ctlDispatch s = .next (s.setHost { s.host with hpc := .advAccount, ackSeen := s.ackres }) :=
  if_pos h

/-- A retryable result goes to Retry (R26, R228). -/
theorem ctlDispatch_of_retryable {s : State} (h : retryable s.ackres = true) :
    ctlDispatch s = .next (s.setHost { s.host with hpc := .retryCount, ackSeen := s.ackres }) := by
  have hne : s.ackres ≠ ackCode .acknowledged := fun he => by rw [he] at h; exact absurd h (by decide)
  rw [ctlDispatch, if_neg hne, if_pos h]

/-- Below the cap the packet is sent again (R231). -/
theorem ctlRetryDecide_of_lt {s : State} (h : s.host.retryCount < MAX_RETRY) :
    ctlRetryDecide s = .next (s.goto .sendWrite) :=
  if_neg (Nat.not_le.2 h)

/-- At the cap the transfer is aborted (R231, R234). -/
theorem ctlRetryDecide_of_le {s : State} (h : MAX_RETRY ≤ s.host.retryCount) :
    ctlRetryDecide s = .next (s.setHost (s.host.finish .abort (.abortedRetry s.seq s.host.bytesSent))) :=
  if_pos h

/-! ### A failed attempt -/

/-- The session once a failed attempt with this result is counted and logged (R231.1, R231.2). -/
def Controller.countFailure (h : Controller) (res : BitVec 3) : Controller :=
  { h with
    hpc := .retryDecide, ackSeen := res, retryCount := h.retryCount + 1,
    anomalies := if res = ackCode .unexpectedType then h.anomalies + 1 else h.anomalies }

theorem step_recvDispatch {s : State} (hprog : s.program = []) (hp : s.host.hpc = .recvDispatch) :
    step s = ctlDispatch s := by
  rw [step_controller s hprog, ctlStep, hp]

theorem step_retryCount {s : State} (hprog : s.program = []) (hp : s.host.hpc = .retryCount) :
    step s = .next (s.setHost { s.host with hpc := .retryLog, retryCount := s.host.retryCount + 1 }) := by
  rw [step_controller s hprog, ctlStep, hp]

theorem step_retryLog {s : State} (hprog : s.program = []) (hp : s.host.hpc = .retryLog) : step s = ctlRetryLog s := by
  rw [step_controller s hprog, ctlStep, hp]

theorem step_retryDecide {s : State} (hprog : s.program = []) (hp : s.host.hpc = .retryDecide) :
    step s = ctlRetryDecide s := by
  rw [step_controller s hprog, ctlStep, hp]

/-- From the dispatch of a retryable result three steps count it and log it. -/
theorem run_countFailure {s : State} (hprog : s.program = []) (hp : s.host.hpc = .recvDispatch)
    (hr : retryable s.ackres = true) : Sys2Proof.core.run 3 s = .next (s.setHost (s.host.countFailure s.ackres)) := by
  have hdispatch := (step_recvDispatch hprog hp).trans (ctlDispatch_of_retryable hr)
  calc
    _ = Sys2Proof.core.run 2 _ := run_succ 2 hdispatch
    _ = Sys2Proof.core.run 1 _ := run_succ 1 (step_retryCount hprog rfl)
    _ = Sys2Proof.core.run 0 _ := run_succ 0 (step_retryLog hprog rfl)

/-- The fourth step decides. -/
theorem run_failedAttempt {s t : State} (hprog : s.program = []) (hp : s.host.hpc = .recvDispatch)
    (hr : retryable s.ackres = true) (ht : ctlRetryDecide (s.setHost (s.host.countFailure s.ackres)) = .next t) :
    Sys2Proof.core.run 4 s = .next t :=
  (run_add 1 (run_countFailure hprog hp hr)).trans (run_succ 0 (ht ▸ step_retryDecide hprog rfl))

/-- Settles O57, by the result at the dispatch and, for a retryable one, by whether the cap is reached. -/
theorem retryableResultsAreCountedAndResent : Obligations.RetryableResultsAreCountedAndResent := by
  intro s hconf hp
  obtain ⟨-, hprog, hsession⟩ := hconf
  rw [hp] at hsession
  obtain ⟨-, hresult⟩ := hsession
  by_cases hack : s.ackres = 1#3
  · exact ⟨_, (step_recvDispatch hprog hp).trans (ctlDispatch_of_acknowledged hack), rfl, fun _ => rfl,
      fun h => absurd hack h⟩
  · have hr : retryable s.ackres = true := hresult.resolve_left hack
    refine ⟨_, (step_recvDispatch hprog hp).trans (ctlDispatch_of_retryable hr), rfl, fun h => absurd h hack, fun _ => ?_⟩
    by_cases hlt : s.host.retryCount + 1 < 4
    · exact ⟨_, run_failedAttempt hprog hp hr (ctlRetryDecide_of_lt hlt), rfl, rfl, rfl, fun _ => rfl,
        fun h => absurd h (Nat.ne_of_lt hlt)⟩
    · exact ⟨_, run_failedAttempt hprog hp hr (ctlRetryDecide_of_le (Nat.not_lt.1 hlt)), rfl, rfl, rfl,
        fun h => absurd h hlt, fun _ => ⟨rfl, rfl⟩⟩

end Sys2Proof.Machine
end

section
/-! PROOFS. An append read back at the port (O48): it writes the one entry at the index that was the length (spec/20_memory.md R63), and
TXPUSH and RXPUSH below the capacity are that append (R141, R161). -/

namespace Sys2Proof.Machine

/-- Below the capacity TXPUSH appends (R141). -/
theorem exec_txpush_of_lt {s : State} (v : Byte) (h : s.mem.chunk.length < capacity s.cfg .chunk) :
    exec (.txpush v) s = .next (s.setMem (s.mem.push .chunk v)) := by
  rw [exec_txpush, if_neg h.ne]

/-- Below the capacity RXPUSH appends (R161). -/
theorem exec_rxpush_of_lt {s : State} (v : Byte) (h : s.mem.rx.length < capacity s.cfg .rx) :
    exec (.rxpush v) s = .next (s.setMem (s.mem.push .rx v)) := by
  rw [exec_rxpush, if_neg h.ne]

/-- The byte appended reads back at the index that was the length. -/
theorem readBuf_push_length (s : State) (b : BufName) (v : Byte) :
    (s.setMem (s.mem.push b v)).readBuf b (s.mem.buf b).length = some v :=
  (Memory.read_push_same s.mem b v _).trans (if_pos rfl)

/-- Every other entry of the buffer reads as before. -/
theorem readBuf_push_of_ne_length (s : State) {b : BufName} (v : Byte) {i : Nat} (h : i ≠ (s.mem.buf b).length) :
    (s.setMem (s.mem.push b v)).readBuf b i = s.readBuf b i :=
  (Memory.read_push_same s.mem b v i).trans (if_neg h)

/-- Every entry of every other buffer reads as before. -/
theorem readBuf_push_other (s : State) {b n : BufName} (v : Byte) (i : Nat) (h : n ≠ b) :
    (s.setMem (s.mem.push b v)).readBuf n i = s.readBuf n i :=
  Memory.read_setBuf_other s.mem _ i h

/-- Settles O48: below the capacity each command is its append, whose reads are the three above. -/
theorem pushedByteReadsBack : Obligations.PushedByteReadsBack := by
  refine fun s t v => ⟨fun hlen ht => ?_, fun hlen ht => ?_⟩
  · cases (exec_txpush_of_lt v hlen).symm.trans ht
    exact ⟨readBuf_push_length s _ v, fun _ => readBuf_push_of_ne_length s v, fun _ => readBuf_push_other s v⟩
  · cases (exec_rxpush_of_lt v hlen).symm.trans ht
    exact ⟨readBuf_push_length s _ v, fun _ => readBuf_push_of_ne_length s v, fun _ => readBuf_push_other s v⟩

end Sys2Proof.Machine
end

section
/-! PROOFS. A step that takes a read (O47): the action leaves the program and the answer is recorded, nothing else
(spec/20_memory.md R54, R55). -/

namespace Sys2Proof.Machine

/-- Taking the action changes nothing a read looks at. -/
theorem step_readReg {s : State} {n : Nat} {rest : List PortAction} (h : s.program = .readReg n :: rest) :
    step s = .next ((s.setProgram rest).setReadData (readAnswer (s.readReg n))) :=
  step_port s _ rest h

theorem step_readBuf {s : State} {b : BufName} {i : Nat} {rest : List PortAction} (h : s.program = .readBuf b i :: rest) :
    step s = .next ((s.setProgram rest).setReadData (readAnswer ((s.readBuf b i).map (·.setWidth 16)))) :=
  step_port s _ rest h

/-- Settles O47, by whether the read gives a value or is refused. -/
theorem readsHaveNoSideEffect : Obligations.ReadsHaveNoSideEffect := by
  refine fun s rest n b => ⟨fun h => ?_, fun h => ?_⟩
  · rw [step_readReg h]
    cases s.readReg n <;> rfl
  · rw [step_readBuf h]
    cases s.readBuf b n <;> rfl

end Sys2Proof.Machine
end

section
/-! SUPPORT. The decoder, said once: what a row of Table R75 makes of IMM, which opcodes are of which class, and what decode_cmd
answers at an assigned and at an unassigned opcode (spec/30_encoding.md R72, R74). -/

namespace Sys2Proof

/-! ### Words and their fields (Table R71) -/

/-- A word is its three fields: no bit lies outside them. -/
theorem rawOf_injective {w u : Command} (h : rawOf w = rawOf u) : w = u := by
  have hop := congrArg (·.op.toNat) h
  have hrsv := congrArg (·.rsv.toNat) h
  have himm := congrArg (·.imm.toNat) h
  simp only [rawOf_op_toNat, rawOf_rsv_toNat, rawOf_imm_toNat] at hop hrsv himm
  exact BitVec.eq_of_toNat_eq (by omega)

/-! ### Operands (R72, R73) -/

/-- What a command of this class keeps of IMM: nothing, its low byte, or all of it. -/
def keptImm : OpClass → Word16 → Word16
  | .n, _ => 0#16
  | .b, imm => (immByte imm).setWidth 16
  | .w, imm => imm

/-- The class's zero bits are zero exactly when the class keeps all of IMM (R72). -/
theorem immFits_iff_keptImm (c : RawCommand) (cls : OpClass) : c.immFits cls = true ↔ keptImm cls c.imm = c.imm := by
  cases cls with
  | n => exact beq_iff_eq.trans eq_comm
  | b =>
    have hlt := c.imm.isLt
    rw [RawCommand.immFits, beq_iff_eq, imm_high_zero, keptImm, ← BitVec.toNat_inj, BitVec.toNat_setWidth, immByte_toNat]
    omega
  | w => simp [RawCommand.immFits, keptImm]

theorem immByte_setWidth (b : Byte) : immByte (b.setWidth 16) = b :=
  BitVec.eq_of_toNat_eq (by have := b.isLt; rw [immByte_toNat, BitVec.toNat_setWidth]; omega)

/-! ### Table R75 -/

/-- A row's command has the row's OP, and what its class keeps of IMM as its operand. -/
theorem opcodeTable_row {op : Byte} {cls : OpClass} {make : Word16 → Instr} (h : opcodeTable op = some (cls, make))
    (imm : Word16) : opcodeOf (make imm) = op ∧ immOf (make imm) = keptImm cls imm := by
  unfold opcodeTable at h
  split at h <;> cases h <;> exact ⟨rfl, rfl⟩

/-- Every command has its row, which makes it of its own IMM. -/
theorem opcodeTable_opcodeOf (i : Instr) :
    ∃ make, opcodeTable (opcodeOf i) = some (i.opClass, make) ∧ make (immOf i) = i := by
  cases i with
  | esctst b | escenc b | escdec b | tochar b | unchar b | txpush b | rxpush b =>
    exact ⟨_, rfl, congrArg _ (immByte_setWidth b)⟩
  | _ => exact ⟨_, rfl, rfl⟩

/-- The opcodes of each class (Table R75). -/
def opcodesOfClass : OpClass → List Nat
  | .n => [0x01, 0x02, 0x40, 0x42, 0x50, 0x52, 0x53]
  | .b => [0x10, 0x11, 0x12, 0x20, 0x21, 0x41, 0x51]
  | .w => [0x30]

theorem opcodeTable_class_iff (op : Byte) (cls : OpClass) :
    (opcodeTable op).map Prod.fst = some cls ↔ op.toNat ∈ opcodesOfClass cls := by
  revert op
  cases cls <;> decide

/-! ### decode_cmd (R74) -/

/-- The checks after the opcode, in the word's fields (R72). -/
theorem wellFormed_iff_keptImm (c : RawCommand) (cls : OpClass) :
    c.wellFormed cls = true ↔ c.rsv = 0#8 ∧ keptImm cls c.imm = c.imm := by
  simp [RawCommand.wellFormed, RawCommand.rsvZero, immFits_iff_keptImm]

/-- The same checks in the word's arithmetic. -/
theorem wellFormed_rawOf_iff (w : Command) (cls : OpClass) :
    (rawOf w).wellFormed cls = true ↔
      w.toNat / 2 ^ 16 % 256 = 0 ∧ (cls = .n → w.toNat % 2 ^ 16 = 0) ∧ (cls = .b → w.toNat % 2 ^ 16 / 256 = 0) := by
  rw [RawCommand.wellFormed, Bool.and_eq_true, RawCommand.rsvZero, beq_iff_eq, ← BitVec.toNat_inj, rawOf_rsv_toNat]
  refine and_congr Iff.rfl ?_
  cases cls with
  | n => simp [RawCommand.immFits, ← BitVec.toNat_inj, rawOf_imm_toNat]
  | b => simp [RawCommand.immFits, imm_high_zero, rawOf_imm_toNat]
  | w => simp [RawCommand.immFits]

theorem decodeCmd_of_unassigned {w : Command} (h : opcodeTable (rawOf w).op = none) :
    decodeCmd w = .fault .illegalOpcode := by
  simp [decodeCmd, h]

/-- At an assigned opcode both later checks raise the same cause. -/
theorem decodeCmd_of_assigned {w : Command} {cls : OpClass} {make : Word16 → Instr}
    (h : opcodeTable (rawOf w).op = some (cls, make)) :
    decodeCmd w = if (rawOf w).wellFormed cls = true then .instr (make (rawOf w).imm) else .fault .reservedField := by
  unfold decodeCmd RawCommand.wellFormed
  simp only [h]
  cases (rawOf w).rsvZero <;> cases (rawOf w).immFits cls <;> simp

/-- Decoding raises no other cause (Table R261). -/
theorem decodeCmd_fault_cause {w : Command} {c : FaultCause} (h : decodeCmd w = .fault c) :
    c = .illegalOpcode ∨ c = .reservedField := by
  cases hrow : opcodeTable (rawOf w).op with
  | none =>
    rw [decodeCmd_of_unassigned hrow] at h
    cases h
    exact .inl rfl
  | some row =>
    rw [decodeCmd_of_assigned hrow] at h
    split at h <;> cases h
    exact .inr rfl

end Sys2Proof
end

section
/-! PROOFS. Decoding and encoding are inverse on the commands' words (O1), and the checks of decode_cmd decide in their order (O2, O3;
spec/30_encoding.md R74, R75, R78). -/

namespace Sys2Proof

/-- A command's own word decodes to it. -/
theorem decodeCmd_encode (i : Instr) : decodeCmd (encode i) = .instr i := by
  obtain ⟨make, hrow, hmake⟩ := opcodeTable_opcodeOf i
  have hraw := Laws.WellFormedEncoding.fields i
  have hkept : keptImm i.opClass (immOf i) = immOf i := by rw [← (opcodeTable_row hrow (immOf i)).2, hmake]
  rw [decodeCmd_of_assigned (by rw [hraw]; exact hrow), hraw, if_pos ((wellFormed_iff_keptImm _ _).2 ⟨rfl, hkept⟩), hmake]

/-- A word that decodes to a command has that command's fields, so it is its word. -/
theorem eq_encode_of_decodeCmd {w : Command} {i : Instr} (h : decodeCmd w = .instr i) : w = encode i := by
  cases hrow : opcodeTable (rawOf w).op with
  | none => cases (decodeCmd_of_unassigned hrow).symm.trans h
  | some row =>
    obtain ⟨cls, make⟩ := row
    rw [decodeCmd_of_assigned hrow] at h
    split at h <;> cases h
    next hwf =>
    obtain ⟨hrsv, hkept⟩ := (wellFormed_iff_keptImm _ _).1 hwf
    obtain ⟨hop, himm⟩ := opcodeTable_row hrow (rawOf w).imm
    apply rawOf_injective
    rw [Laws.WellFormedEncoding.fields, hop, himm, hkept, ← hrsv]

/-- Settles O1, by the table's rows: each opcode's row makes the one command with that opcode, of the IMM it keeps. -/
theorem wordDecodesExactlyToItsCommand : Obligations.WordDecodesExactlyToItsCommand :=
  fun _ i => ⟨eq_encode_of_decodeCmd, fun h => h ▸ decodeCmd_encode i⟩

/-- Settles O2, by whether the opcode has a row and whether the row's class finds its zero bits zero. -/
theorem firstFailingDecodeCheckDecides : Obligations.FirstFailingDecodeCheckDecides := by
  intro w op rsv imm classN classB classW assigned badBits
  have hmem (cls : OpClass) : op ∈ opcodesOfClass cls ↔ (opcodeTable (rawOf w).op).map Prod.fst = some cls := by
    rw [opcodeTable_class_iff, rawOf_op_toNat]
  have hN : op ∈ classN ↔ _ := hmem .n
  have hB : op ∈ classB ↔ _ := hmem .b
  have hW : op ∈ classW ↔ _ := hmem .w
  cases hrow : opcodeTable (rawOf w).op with
  | none =>
    have hnot : ¬ assigned := by simp [assigned, hN, hB, hW, hrow]
    exact ⟨fun _ => decodeCmd_of_unassigned hrow, fun h => absurd h hnot, fun h => absurd h hnot⟩
  | some row =>
    obtain ⟨cls, make⟩ := row
    have hassigned : assigned := by cases cls <;> simp [assigned, hN, hB, hW, hrow]
    have hbad : (rawOf w).wellFormed cls = true ↔ ¬ badBits := by
      rw [wellFormed_rawOf_iff]
      cases cls <;> simp [badBits, hN, hB, hrow, rsv, imm]
    obtain ⟨hop, himm⟩ := opcodeTable_row hrow (rawOf w).imm
    rw [decodeCmd_of_assigned hrow]
    refine ⟨fun h => absurd hassigned h, fun _ h => if_neg fun hwf => hbad.1 hwf h, fun _ h => ?_⟩
    have hwf := hbad.2 h
    refine ⟨_, if_pos hwf, ?_, ?_⟩
    · rw [hop, rawOf_op_toNat]
    · rw [himm, ((wellFormed_iff_keptImm _ _).1 hwf).2, rawOf_imm_toNat]

/-- Settles O3: the ten words are literals, which the decoder evaluates. -/
theorem tabledWordsDecode : Obligations.TabledWordsDecode := by
  unfold Obligations.TabledWordsDecode
  decide

end Sys2Proof
end

section
/-! PROOFS. A step with a word at the port: it performs the word's command (O4), or records the word's fault and goes on (O37)
(spec/30_encoding.md R70, R74; spec/60_exceptions.md R262). -/

namespace Sys2Proof.Machine

/-- A command word is taken from the port and issued. -/
theorem step_command {s : State} {w : Command} {rest : List PortAction} (h : s.program = .command w :: rest) :
    step s = issue w (s.setProgram rest) :=
  step_port s _ rest h

/-- A placed word is issued in the state it was placed in. -/
theorem step_withFetchWord (s : State) (nbits w : Nat) :
    step (s.withFetchWord nbits w) = issue (BitVec.ofNat 32 (w % 2 ^ nbits)) s :=
  step_command rfl

/-- A table word is the word of a command exactly when decode_cmd says so (log 19). -/
theorem decodeTableWord_eq_some_iff {nbits w : Nat} {i : Instr} :
    decodeTableWord nbits w = some i ↔ decodeCmd (BitVec.ofNat 32 (w % 2 ^ nbits)) = .instr i := by
  unfold decodeTableWord
  split <;> simp [*]

/-- Settles O4, by the one rule for issuing a word that decodes. -/
theorem stepPerformsThePresentedCommand : Obligations.StepPerformsThePresentedCommand := by
  refine ⟨fun s w rest i hport hdec => ?_, fun s w i hdec => ?_⟩
  · exact (step_command hport).trans (issue_of_decode hdec _)
  · exact (step_withFetchWord s 32 w).trans (issue_of_decode (decodeTableWord_eq_some_iff.1 hdec) s)

/-- A step with a word that does not decode writes STATUS alone, and only if FAULT was 0. -/
theorem step_of_decodeCmd_fault {s : State} {w : Command} {rest : List PortAction} {c : FaultCause}
    (hport : s.program = .command w :: rest) (hdec : decodeCmd w = .fault c) :
    step s = .next { s with program := rest, status := if s.status.toNat % 2 = 0 then statusWord c else s.status } := by
  rw [step_command hport, issue_of_fault hdec, recordFault_eq]
  rfl

/-- Settles O37, by the two causes a word that does not decode can have. -/
theorem firstFaultCauseIsKept : Obligations.FirstFaultCauseIsKept := by
  intro s w rest c hport hdec
  have hstep := step_of_decodeCmd_fault hport hdec
  rcases decodeCmd_fault_cause hdec with rfl | rfl
  · exact .inl ⟨rfl, hstep⟩
  · exact .inr ⟨rfl, hstep⟩

end Sys2Proof.Machine
end

section
/-! PROOFS. Every byte esc_expand emits is printable but for bit 7 (spec/40_escaper.md R104), so no escaped byte is a delimiter (O16). -/

namespace Sys2Proof.Machine

/-- The low 7 bits of an emitted byte lie from 0x20 to 0x7E (R104 (b)). -/
theorem escExpand_mem_bounds {b x : Byte} (h : x ∈ escExpand b) : 0x20 ≤ x.toNat % 128 ∧ x.toNat % 128 ≤ 0x7E := by
  have hesc := shouldEscape_iff b
  have hmarker : ESC_CHAR.toNat = 0x23 := rfl
  rcases escExpand_cases b with ⟨hb, he⟩ | ⟨hb, hlow, he⟩ | ⟨hb, hlow, he⟩
  · rw [he, List.mem_singleton] at h
    subst h
    rw [hb] at hesc
    simp only [Bool.false_eq_true, false_iff] at hesc
    omega
  · rw [low7_eq_esc] at hlow
    rw [he] at h
    rcases List.mem_pair.1 h with rfl | rfl <;> omega
  · rw [Ne, low7_eq_esc] at hlow
    have hrange := hesc.1 hb
    rw [he] at h
    rcases List.mem_pair.1 h with rfl | rfl
    · omega
    · rw [xor_ctl_toNat]
      split <;> omega

/-- So do those of every byte of an escaped chunk (R102). -/
theorem escaped_mem_bounds {c : List Byte} {x : Byte} (h : x ∈ escaped c) :
    0x20 ≤ x.toNat % 128 ∧ x.toNat % 128 ≤ 0x7E := by
  induction c with
  | nil => cases h
  | cons b bs ih =>
    rw [escaped_cons, List.mem_append] at h
    exact h.elim escExpand_mem_bounds ih

/-- START and EOL lie below 0x20, so no byte with those bounds is one of them (R82). -/
theorem ne_delimiters_of_bound {x : Byte} (h : 0x20 ≤ x.toNat % 128) : x ≠ START ∧ x ≠ EOL := by
  constructor <;> rintro rfl <;> exact absurd h (by decide)

/-- Settles O16, by the bounds, byte for byte of the chunk. -/
theorem escapedBytesAreNoDelimiters : Obligations.EscapedBytesAreNoDelimiters := by
  intro c x hx
  obtain ⟨hlo, hhi⟩ := escaped_mem_bounds hx
  exact ⟨hlo, hhi, ne_delimiters_of_bound hlo⟩

end Sys2Proof.Machine
end

section
/-! PROOFS. ACKCHK on a well-formed acknowledgment (O31): its checksum and type pass, so its sequence byte alone decides
(spec/30_encoding.md R81, spec/44_ack_decoder.md R162). -/

namespace Sys2Proof.Machine

/-- decode undoes encode on a sequence number, as 8 bits (R122). -/
theorem pvDecode_pvEncode_seq (n : BitVec 7) : pvDecode (pvEncode n.toNat) = n.setWidth 8 := by
  have hlt := n.isLt
  apply BitVec.eq_of_toNat_eq
  rw [pvDecode_toNat, pvEncode_toNat, BitVec.toNat_setWidth]
  omega

/-- Sequence numbers are equal exactly when they are as bytes. -/
theorem setWidth_seq_eq_iff (n m : BitVec 7) : n.setWidth 8 = m.setWidth 8 ↔ n = m := by
  have hn := n.isLt
  have hm := m.isLt
  rw [← BitVec.toNat_inj, ← BitVec.toNat_inj, BitVec.toNat_setWidth, BitVec.toNat_setWidth]
  omega

/-- The acknowledgment of n is taken when n is expected, and otherwise has the wrong sequence number. -/
theorem decodeAck_ackFrame (c : Config) (n m : BitVec 7) :
    decodeAck c (ackFrame c n) (m.setWidth 8) = if n = m then .acknowledged else .sequenceInvalid := by
  simp only [decodeAck, ackFrame, pvDecode_pvEncode_seq, ne_eq, setWidth_seq_eq_iff, ite_not, if_true]

/-- Settles O31, by decode_ack on that frame. -/
theorem wellFormedAckIsAcknowledgedOnlyAtItsSeq : Obligations.WellFormedAckIsAcknowledgedOnlyAtItsSeq := by
  intro s n hrx
  refine ⟨_, exec_ackchk s, ?_⟩
  rw [noteSum_ackres, State.setAckres_ackres, hrx, State.seqByte, decodeAck_ackFrame]
  split <;> rfl

end Sys2Proof.Machine
end

section
/-! SUPPORT. The assembler's text, said once: what the tokenizer does with a character, that an operand's text is one token, and that
hex digits read back (spec/30_encoding.md R78, log 21). -/

namespace Sys2Proof.Machine

/-! ### Tokens -/

/-- A character that begins no quoted character and no comment and separates nothing. -/
def plainChar (c : Char) : Prop := c ≠ '\'' ∧ c ≠ ';' ∧ c ≠ ' ' ∧ c ≠ '\t' ∧ c ≠ ','

/-- A plain character is taken into the token. -/
theorem tokens_cons_of_plainChar {c : Char} (h : plainChar c) (cur rest : List Char) :
    tokens cur (c :: rest) = tokens (cur ++ [c]) rest := by
  obtain ⟨hquote, hsemi, hblank, htab, hcomma⟩ := h
  rw [tokens]
  · simp [hsemi, hblank, htab, hcomma]
  · simp [hquote]

theorem tokens_append_of_plainChar {w : List Char} (h : ∀ c ∈ w, plainChar c) (cur rest : List Char) :
    tokens cur (w ++ rest) = tokens (cur ++ w) rest := by
  induction w generalizing cur with
  | nil => simp
  | cons c w ih =>
    obtain ⟨hc, hw⟩ := List.forall_mem_cons.1 h
    rw [List.cons_append, tokens_cons_of_plainChar hc, ih hw, List.append_assoc, List.singleton_append]

/-- A blank ends the token before it. -/
theorem tokens_blank (cur rest : List Char) : tokens cur (' ' :: rest) = flushToken cur (tokens [] rest) := by
  rw [tokens]
  · rfl
  · simp

theorem flushToken_of_ne_nil {cur : List Char} (h : cur ≠ []) (rest : List (List Char)) :
    flushToken cur rest = cur :: rest := by
  cases cur with
  | nil => exact absurd rfl h
  | cons => rfl

/-- Plain characters alone are one token. -/
theorem tokens_of_plainChar {w : List Char} (h : ∀ c ∈ w, plainChar c) (hne : w ≠ []) : tokens [] w = [w] := by
  have := tokens_append_of_plainChar h [] []
  rwa [List.append_nil, List.nil_append, tokens, flushToken_of_ne_nil hne] at this

/-- A word of plain characters and a blank are a token before the rest's tokens. -/
theorem tokens_word_blank {w : List Char} (h : ∀ c ∈ w, plainChar c) (hne : w ≠ []) (rest : List Char) :
    tokens [] (w ++ [' '] ++ rest) = w :: tokens [] rest := by
  rw [List.append_assoc, tokens_append_of_plainChar h, List.nil_append, List.singleton_append, tokens_blank,
    flushToken_of_ne_nil hne]

/-! ### Numbers -/

/-- A digit of either base is a plain character. -/
theorem plainChar_of_digitValue {base d : Nat} {c : Char} (h : digitValue base c = some d) : plainChar c := by
  refine ⟨?_, ?_, ?_, ?_, ?_⟩ <;> rintro rfl <;> simp [digitValue] at h

theorem plainChar_of_digitsValue {base acc v : Nat} {ds : List Char} (h : digitsValue base acc ds = some v) :
    ∀ c ∈ ds, plainChar c := by
  induction ds generalizing acc with
  | nil => simp
  | cons d ds ih =>
    rw [digitsValue] at h
    split at h
    next hd => exact List.forall_mem_cons.2 ⟨plainChar_of_digitValue hd, ih h⟩
    · cases h

theorem digitsValue_append (base acc : Nat) (ds es : List Char) :
    digitsValue base acc (ds ++ es) = (digitsValue base acc ds).bind (digitsValue base · es) := by
  induction ds generalizing acc with
  | nil => rfl
  | cons d ds ih =>
    rw [List.cons_append, digitsValue, digitsValue]
    split
    · exact ih _
    · rfl

theorem digitValue_hexDigit : ∀ v < 16, digitValue 16 (hexDigit v) = some v := by decide

/-- The last k hex digits of v read back as v modulo 16^k. -/
theorem digitsValue_hexDigits (k v : Nat) : digitsValue 16 0 (hexDigits k v) = some (v % 16 ^ k) := by
  induction k generalizing v with
  | zero => simp [hexDigits, digitsValue, Nat.mod_one]
  | succ k ih =>
    have hdigit := digitValue_hexDigit (v % 16) (Nat.mod_lt v (by decide))
    have hsplit : v % 16 ^ (k + 1) = v % 16 + 16 * (v / 16 % 16 ^ k) := by rw [Nat.pow_succ', Nat.mod_mul]
    rw [hexDigits, digitsValue_append, ih, Option.bind_some, digitsValue, hdigit, hsplit]
    simp only [digitsValue, Option.some.injEq]
    omega

theorem hexDigits_length (k v : Nat) : (hexDigits k v).length = k := by
  induction k generalizing v with
  | zero => rfl
  | succ k ih => simp [hexDigits, ih]

/-! ### Operands -/

/-- What parses as an operand is a quoted character or plain throughout. -/
theorem quoted_or_plainChar_of_parseOperand {a : List Char} {o : AsmOperand} (h : parseOperand a = some o) :
    (∃ c, a = ['\'', c, '\'']) ∨ (a ≠ [] ∧ ∀ c ∈ a, plainChar c) := by
  unfold parseOperand at h
  split at h
  case h_1 c => exact .inl ⟨c, rfl⟩
  case h_2 d ds =>
    obtain ⟨v, hv, -⟩ := Option.map_eq_some_iff.1 h
    exact .inr ⟨by simp, List.forall_mem_cons.2 ⟨by simp [plainChar],
      List.forall_mem_cons.2 ⟨by simp [plainChar], plainChar_of_digitsValue hv⟩⟩⟩
  case h_3 d ds _ _ =>
    obtain ⟨v, hv, -⟩ := Option.map_eq_some_iff.1 h
    exact .inr ⟨by simp, plainChar_of_digitsValue hv⟩
  case h_4 => cases h

/-- An operand's text is one token, wherever it is written. -/
theorem tokens_of_parseOperand {a : List Char} {o : AsmOperand} (h : parseOperand a = some o) : tokens [] a = [a] := by
  rcases quoted_or_plainChar_of_parseOperand h with ⟨c, rfl⟩ | ⟨hne, hplain⟩
  · simp [tokens, flushToken]
  · exact tokens_of_plainChar hplain hne

/-- The operand a command's source text is made with (R78) reads back. -/
theorem parseOperand_hexDigits {k v : Nat} (hk : 0 < k) (hv : v < 16 ^ k) :
    parseOperand ('0' :: 'x' :: hexDigits k v) = some (.number v) := by
  have hval := digitsValue_hexDigits k v
  have hlen := hexDigits_length k v
  cases hds : hexDigits k v with
  | nil => simp_all
  | cons d ds =>
    rw [hds, Nat.mod_eq_of_lt hv] at hval
    simp [parseOperand, hval]

end Sys2Proof.Machine
end

section
/-! SUPPORT. The assembler, said once: the word of a mnemonic and its operands, the words of a line that is a command, and those of a
pseudo-instruction (spec/30_encoding.md R78, R79). -/

namespace Sys2Proof.Machine

/-! ### Mnemonics -/

/-- The command with its operand replaced by this value; a class N command stays. -/
def withOperand (v : Nat) : Instr → Instr
  | .esctst _ => .esctst (BitVec.ofNat 8 v)
  | .escenc _ => .escenc (BitVec.ofNat 8 v)
  | .escdec _ => .escdec (BitVec.ofNat 8 v)
  | .tochar _ => .tochar (BitVec.ofNat 8 v)
  | .unchar _ => .unchar (BitVec.ofNat 8 v)
  | .cksum _ => .cksum (BitVec.ofNat 16 v)
  | .txpush _ => .txpush (BitVec.ofNat 8 v)
  | .rxpush _ => .rxpush (BitVec.ofNat 8 v)
  | i => i

/-- A mnemonic's row is its command with the operand asked for: no two commands share a mnemonic. -/
theorem asmRows_find (v : Nat) (i : Instr) :
    (asmRows v).find? (fun j => mnemonicOf j == mnemonicOf i) = some (withOperand v i) := by cases i <;> rfl

theorem opClass_withOperand (v : Nat) (i : Instr) : (withOperand v i).opClass = i.opClass := by cases i <;> rfl

theorem withOperand_of_opClass_n {i : Instr} (h : i.opClass = .n) (v : Nat) : withOperand v i = i := by
  cases i with
  | esctst | escenc | escdec | tochar | unchar | cksum | txpush | rxpush => cases h
  | _ => rfl

/-- A command's own operand puts it together again. -/
theorem withOperand_immOf (i : Instr) : withOperand (immOf i).toNat i = i := by
  have hbyte (b : Byte) : BitVec.ofNat 8 (b.setWidth 16).toNat = b := by revert b; decide
  cases i with
  | esctst b | escenc b | escdec b | tochar b | unchar b | txpush b | rxpush b => exact congrArg _ (hbyte b)
  | cksum w => exact congrArg _ (BitVec.ofNat_toNat _ w)
  | _ => rfl

theorem mnemonicOf_plainChar (i : Instr) : ∀ c ∈ mnemonicOf i, plainChar c := by
  cases i <;> simp [mnemonicOf, plainChar]

theorem mnemonicOf_ne_nil (i : Instr) : mnemonicOf i ≠ [] := by cases i <;> simp [mnemonicOf]

/-- The names of the two pseudo-instructions (R79). -/
abbrev txloadName : List Char := ['T', 'X', 'L', 'O', 'A', 'D']
abbrev rxloadName : List Char := ['R', 'X', 'L', 'O', 'A', 'D']

/-- No command is written as a pseudo-instruction (R79). -/
theorem mnemonicOf_ne_pseudo (i : Instr) : mnemonicOf i ≠ txloadName ∧ mnemonicOf i ≠ rxloadName := by
  cases i <;> simp [mnemonicOf]

/-! ### One command -/

theorem assembleCommand_no_operand {i : Instr} (h : i.opClass = .n) :
    assembleCommand (mnemonicOf i) [] = some (encode i) := by
  simp [assembleCommand, asmRows_find, withOperand_of_opClass_n h, h, operandFits]

/-- With an operand of a form its class takes, a command assembles exactly when the operand fits. -/
theorem assembleCommand_operand {i : Instr} {o : AsmOperand} {v : Nat} (h : operandValue i.opClass o = some v) :
    assembleCommand (mnemonicOf i) [o] =
      if operandFits i.opClass (some v) = true then some (encode (withOperand v i)) else none := by
  simp [assembleCommand, asmRows_find, opClass_withOperand, h]

/-! ### One line -/

theorem allSome_eq_some_iff {α : Type} {l : List (Option α)} {as : List α} : allSome l = some as ↔ l = as.map some := by
  induction l generalizing as with
  | nil => cases as <;> simp [allSome]
  | cons o l ih => cases o <;> cases as <;> simp [allSome, ih, and_comm]

/-- A command's mnemonic and operands, however they are written, assemble to its one word. -/
theorem assembleLine_of_tokens {line : List Char} {i : Instr} {args : List (List Char)} {ops : List AsmOperand}
    (ht : tokens [] line = mnemonicOf i :: args) (hargs : args.map parseOperand = ops.map some) :
    assembleLine line = (assembleCommand (mnemonicOf i) ops).map (fun w => [w]) := by
  obtain ⟨htx, hrx⟩ := mnemonicOf_ne_pseudo i
  simp [assembleLine, ht, allSome_eq_some_iff.2 hargs, htx, hrx]

theorem assembleLine_mnemonic {i : Instr} (h : i.opClass = .n) : assembleLine (mnemonicOf i) = some [encode i] := by
  have ht := tokens_of_plainChar (mnemonicOf_plainChar i) (mnemonicOf_ne_nil i)
  rw [assembleLine_of_tokens (ops := []) ht rfl, assembleCommand_no_operand h, Option.map_some]

/-- A mnemonic, a blank and an operand that fits assemble to the command with that operand. -/
theorem assembleLine_operand {i : Instr} {a : List Char} {o : AsmOperand} {v : Nat} (ha : parseOperand a = some o)
    (hv : operandValue i.opClass o = some v) (hfit : operandFits i.opClass (some v) = true) :
    assembleLine (mnemonicOf i ++ [' '] ++ a) = some [encode (withOperand v i)] := by
  have ht : tokens [] (mnemonicOf i ++ [' '] ++ a) = mnemonicOf i :: [a] := by
    rw [tokens_word_blank (mnemonicOf_plainChar i) (mnemonicOf_ne_nil i), tokens_of_parseOperand ha]
  rw [assembleLine_of_tokens (ops := [o]) ht (by simp [ha]), assembleCommand_operand hv, if_pos hfit, Option.map_some]

/-! ### Pseudo-instructions -/

/-- The pushes of a first operand and of the rest. -/
theorem assemblePushes_cons {push : Byte → Instr} {o : AsmOperand} {ops : List AsmOperand} {ws : List Command}
    (h : assemblePushes push (o :: ops) = some ws) :
    ∃ v us, operandValue .b o = some v ∧ operandFits .b (some v) = true ∧ assemblePushes push ops = some us
      ∧ ws = encode (push (BitVec.ofNat 8 v)) :: us := by
  rw [assemblePushes] at h
  split at h
  next v us hv hus =>
    split at h
    next hfit =>
      cases h
      exact ⟨v, us, hv, hfit, hus, rfl⟩
    · cases h
  · cases h

/-- Operands that are bytes push those bytes. -/
theorem assemblePushes_number (push : Byte → Instr) (bs : List Byte) :
    assemblePushes push (bs.map (fun b => .number b.toNat)) = some (bs.map (fun b => encode (push b))) := by
  induction bs with
  | nil => rfl
  | cons b bs ih =>
    have hfit : b.toNat ≤ 255 := Nat.le_of_lt_succ b.isLt
    simp [assemblePushes, operandValue, operandFits, ih, hfit]

end Sys2Proof.Machine
end

section
/-! PROOFS. The assembler: it gives each command's text its word (O5), refuses an operand too large for its class (O6) and expands the
two pseudo-instructions (O7) (spec/30_encoding.md R78, R79). -/

namespace Sys2Proof.Machine

theorem immOf_lt_of_opClass_b {i : Instr} (h : i.opClass = .b) : (immOf i).toNat < 256 := by
  cases i with
  | esctst b | escenc b | escdec b | tochar b | unchar b | txpush b | rxpush b =>
    rw [immOf, BitVec.toNat_setWidth]
    omega
  | _ => cases h

/-- A command's own operand, written in hex, assembles to its word. -/
theorem assembleLine_hexDigits {i : Instr} {k : Nat} (hk : 0 < k) (himm : (immOf i).toNat < 16 ^ k)
    (hfit : operandFits i.opClass (some (immOf i).toNat) = true) :
    assembleLine (mnemonicOf i ++ [' '] ++ '0' :: 'x' :: hexDigits k (immOf i).toNat) = some [encode i] := by
  have hvalue : operandValue i.opClass (.number (immOf i).toNat) = some (immOf i).toNat := by rw [operandValue]
  rw [assembleLine_operand (parseOperand_hexDigits hk himm) hvalue hfit, withOperand_immOf]

/-- Settles O5, by the command's class: no operand, two hex digits or four. -/
theorem assemblerGivesTheWord : Obligations.AssemblerGivesTheWord := by
  intro i
  cases hclass : i.opClass with
  | n =>
    rw [asmText, hclass]
    exact assembleLine_mnemonic hclass
  | b =>
    have hlt := immOf_lt_of_opClass_b hclass
    have hfit : operandFits i.opClass (some (immOf i).toNat) = true := by
      rw [hclass]
      exact decide_eq_true (Nat.le_of_lt_succ hlt)
    simpa [asmText, hclass] using assembleLine_hexDigits (k := 2) (by decide) hlt hfit
  | w =>
    have hlt := (immOf i).isLt
    have hfit : operandFits i.opClass (some (immOf i).toNat) = true := by
      rw [hclass]
      exact decide_eq_true (Nat.le_of_lt_succ hlt)
    simpa [asmText, hclass] using assembleLine_hexDigits (k := 4) (by decide) hlt hfit

/-- Settles O6: a number is an operand of either class, and it does not fit. -/
theorem assemblerRefusesLargeOperands : Obligations.AssemblerRefusesLargeOperands := by
  intro i v
  have hcmd := assembleCommand_operand (i := i) (o := .number v) (v := v) (by rw [operandValue])
  refine ⟨fun hclass hv => ?_, fun hclass hv => ?_⟩ <;>
    · rw [hcmd, hclass, operandFits, if_neg]
      simpa using hv

/-- Settles O7: both are a clear and the pushes of their operands. -/
theorem pseudoInstructionsExpand : Obligations.PseudoInstructionsExpand := by
  intro bs
  rw [assembleTxload, assembleRxload, assemblePushes_number, assemblePushes_number]
  exact ⟨rfl, rfl⟩

end Sys2Proof.Machine
end

section
/-! PROOFS. The listing (O8): each source line a line stands for assembles to its word, and a listing line shows that word and that
source (spec/30_encoding.md R78, R79). -/

namespace Sys2Proof.Machine

/-! ### Listing lines -/

/-- The first eight characters read back as the word. -/
theorem listingLine_word (w : Command) (text : List Char) :
    digitsValue 16 0 ((listingLine w text).take 8) = some w.toNat := by
  have hlen := hexDigits_length 8 w.toNat
  have hlt : w.toNat < 16 ^ 8 := w.isLt
  rw [listingLine, List.append_assoc, List.take_left' hlen, digitsValue_hexDigits, Nat.mod_eq_of_lt hlt]

/-- The text from the eleventh on is the source. -/
theorem listingLine_source (w : Command) (text : List Char) : (listingLine w text).drop 10 = text := by
  have hlen : (hexDigits 8 w.toNat ++ [' ', ' ']).length = 10 := by simp [hexDigits_length]
  rw [listingLine, List.drop_left' hlen]

theorem listing_words {ws : List Command} {srcs : List (List Char)} (h : srcs.length = ws.length) :
    (List.zipWith listingLine ws srcs).map (fun l => digitsValue 16 0 (l.take 8)) = ws.map (fun v => some v.toNat) := by
  induction ws generalizing srcs with
  | nil => rfl
  | cons w ws ih =>
    cases srcs with
    | nil => cases h
    | cons src srcs => simp [listingLine_word, ih (Nat.succ.inj h)]

theorem listing_sources {ws : List Command} {srcs : List (List Char)} (h : srcs.length = ws.length) :
    (List.zipWith listingLine ws srcs).map (fun l => l.drop 10) = srcs := by
  induction ws generalizing srcs with
  | nil => rw [List.eq_nil_of_length_eq_zero h]; rfl
  | cons w ws ih =>
    cases srcs with
    | nil => cases h
    | cons src srcs => simp [listingLine_source, ih (Nat.succ.inj h)]

/-! ### The source lines of a line -/

/-- What a line that assembles can be: no token, a pseudo-instruction, or one command (R78, R79). -/
theorem assembleLine_cases {line : List Char} {ws : List Command} (h : assembleLine line = some ws) :
    ws = [] ∨ ∃ name args ops, tokens [] line = name :: args ∧ args.map parseOperand = ops.map some
      ∧ ((name = txloadName ∧ assembleTxload ops = some ws) ∨ (name = rxloadName ∧ assembleRxload ops = some ws)
        ∨ (name ≠ txloadName ∧ name ≠ rxloadName ∧ ∃ w, ws = [w])) := by
  unfold assembleLine at h
  split at h
  · cases h
    exact .inl rfl
  next name args ht =>
    split at h
    · cases h
    next ops hops =>
      refine .inr ⟨name, args, ops, ht, allSome_eq_some_iff.1 hops, ?_⟩
      split at h
      next htx => exact .inl ⟨htx, h⟩
      next htx =>
        split at h
        next hrx => exact .inr (.inl ⟨hrx, h⟩)
        next hrx =>
          obtain ⟨w, -, hw⟩ := Option.map_eq_some_iff.1 h
          exact .inr (.inr ⟨htx, hrx, w, hw.symm⟩)

/-- The source lines of a pseudo-instruction: the clear, and a push of each operand as written (R79). -/
def loadSources (clear push : Instr) (args : List (List Char)) : List (List Char) :=
  mnemonicOf clear :: args.map (fun a => mnemonicOf push ++ [' '] ++ a)

theorem expandSource_txload {line : List Char} {args : List (List Char)} (h : tokens [] line = txloadName :: args) :
    expandSource line = loadSources .txclr (.txpush 0#8) args := by
  rw [expandSource, h]
  rfl

theorem expandSource_rxload {line : List Char} {args : List (List Char)} (h : tokens [] line = rxloadName :: args) :
    expandSource line = loadSources .rxclr (.rxpush 0#8) args := by
  rw [expandSource, h]
  rfl

theorem expandSource_other {line : List Char} (htx : (tokens [] line).head? ≠ some txloadName)
    (hrx : (tokens [] line).head? ≠ some rxloadName) : expandSource line = [line] := by
  unfold expandSource
  split
  · rfl
  next name args ht =>
    rw [ht, List.head?_cons, Ne, Option.some_inj] at htx hrx
    rw [if_neg htx, if_neg hrx]

/-- Each push of an expansion assembles to its word. -/
theorem pushSources_assemble {push : Byte → Instr} (hclass : (push 0#8).opClass = .b)
    (hpush : ∀ v, withOperand v (push 0#8) = push (BitVec.ofNat 8 v)) {args : List (List Char)} {ops : List AsmOperand}
    {ws : List Command} (hargs : args.map parseOperand = ops.map some) (h : assemblePushes push ops = some ws) :
    args.map (fun a => assembleLine (mnemonicOf (push 0#8) ++ [' '] ++ a)) = ws.map (fun v => some [v]) := by
  induction args generalizing ops ws with
  | nil =>
    rw [List.map_nil, eq_comm, List.map_eq_nil_iff] at hargs
    subst hargs
    cases h
    rfl
  | cons a args ih =>
    cases ops with
    | nil => cases hargs
    | cons o ops =>
      obtain ⟨ha, hargs⟩ := List.cons_eq_cons.1 hargs
      obtain ⟨v, us, hv, hfit, hus, rfl⟩ := assemblePushes_cons h
      rw [← hclass] at hv hfit
      rw [List.map_cons, List.map_cons, assembleLine_operand ha hv hfit, hpush, ih hargs hus]

/-- Each source line of a pseudo-instruction assembles to its word. -/
theorem loadSources_assemble {clear : Instr} {push : Byte → Instr} (hclear : clear.opClass = .n)
    (hclass : (push 0#8).opClass = .b) (hpush : ∀ v, withOperand v (push 0#8) = push (BitVec.ofNat 8 v))
    {args : List (List Char)} {ops : List AsmOperand} {ws : List Command} (hargs : args.map parseOperand = ops.map some)
    (h : (assemblePushes push ops).map (encode clear :: ·) = some ws) :
    (loadSources clear (push 0#8) args).map assembleLine = ws.map (fun v => some [v]) := by
  obtain ⟨us, hus, rfl⟩ := Option.map_eq_some_iff.1 h
  rw [loadSources, List.map_cons, List.map_map, List.map_cons, assembleLine_mnemonic hclear]
  exact congrArg _ (pushSources_assemble hclass hpush hargs hus)

/-- The source lines of a line assemble, one by one, to its words. -/
theorem expandSource_assembles {line : List Char} {ws : List Command} (h : assembleLine line = some ws) (hne : ws ≠ []) :
    (expandSource line).map assembleLine = ws.map (fun v => some [v]) := by
  rcases assembleLine_cases h with hnil | ⟨name, args, ops, ht, hargs, htx | hrx | hother⟩
  · exact absurd hnil hne
  · obtain ⟨rfl, hload⟩ := htx
    rw [expandSource_txload ht]
    exact loadSources_assemble rfl rfl (fun _ => rfl) hargs hload
  · obtain ⟨rfl, hload⟩ := hrx
    rw [expandSource_rxload ht]
    exact loadSources_assemble rfl rfl (fun _ => rfl) hargs hload
  · obtain ⟨htx, hrx, w, rfl⟩ := hother
    rw [expandSource_other (by simpa [ht] using htx) (by simpa [ht] using hrx), List.map_singleton, h, List.map_singleton]

/-- Settles O8, by the line's source lines: each assembles to its word, and a listing line shows both. -/
theorem listingShowsEachWordWithItsSource : Obligations.ListingShowsEachWordWithItsSource := by
  intro line w ws h
  have hsrc := expandSource_assembles h (List.cons_ne_nil w ws)
  have hlen : (expandSource line).length = (w :: ws).length := by simpa using congrArg List.length hsrc
  refine ⟨List.zipWith listingLine (w :: ws) (expandSource line), by rw [listSource, h], listing_words hlen, ?_, ?_⟩
  · have hmap := congrArg (List.map assembleLine) (listing_sources hlen)
    rwa [List.map_map, hsrc] at hmap
  · intro htx hrx
    rw [listing_sources hlen]
    exact expandSource_other htx hrx

end Sys2Proof.Machine
end

section
/-! SUPPORT. The escaper, said once: the byte after a marker and what unescape makes of it, and what the payload decoder does with a
byte that is a marker and with one that is not (spec/40_escaper.md R102 to R104, spec/45_data_decoder.md R185). -/

namespace Sys2Proof

/-- A class B command's word, its OP's bits and its operand's: the word decodes to it (Table R75). -/
theorem decodeCmd_byte_word {i : Instr} {b : Byte} {op : Command} (opcode : Byte) (hopcode : opcodeOf i = opcode)
    (himm : immOf i = b.setWidth 16) (hop : opcode.setWidth 32 <<< 24 = op) :
    decodeCmd (op ||| b.setWidth 32) = .instr i := by
  have hword : encode i = op ||| b.setWidth 32 := by
    rw [encode, hopcode, hop, himm, BitVec.setWidth_setWidth (by decide)]
  rw [← hword, decodeCmd_encode]

namespace Machine

/-! ### unescape and esc_expand (R102, R103) -/

/-- unescape in plain arithmetic. -/
theorem unescape_toNat (e : Byte) : (unescape e).toNat =
    if e.toNat % 128 = 0x23 then e.toNat else if e.toNat / 64 % 2 = 0 then e.toNat + 64 else e.toNat - 64 := by
  rw [unescape, apply_ite BitVec.toNat, xor_ctl_toNat]
  simp only [low7_eq_esc]

/-- A byte that needs no escape is printable but for bit 7, and no escape character. -/
theorem shouldEscape_eq_false_iff (b : Byte) :
    shouldEscape b = false ↔ 0x20 ≤ b.toNat % 128 ∧ b.toNat % 128 ≤ 0x7E ∧ b.toNat % 128 ≠ 0x23 := by
  rw [← Bool.not_eq_true, shouldEscape_iff]
  omega

theorem escExpand_of_not_shouldEscape {b : Byte} (h : shouldEscape b = false) : escExpand b = [b] := if_pos h

/-- Where the byte after a marker lies (R104 (b)). -/
def InMarkedRange (e : Byte) : Prop :=
  e.toNat % 128 = 0x23 ∨ e.toNat % 128 = 0x3F ∨ (0x40 ≤ e.toNat % 128 ∧ e.toNat % 128 ≤ 0x5F)

/-- Flipping bit 6 of a control byte or DEL gives a byte other than the escape character, so flipping it again is what
unescape does. -/
theorem unescape_xor_ctl {b : Byte} (h : shouldEscape b = true) (hlow : low7 b ≠ ESC_CHAR) :
    unescape (b ^^^ CTL_XOR) = b ∧ InMarkedRange (b ^^^ CTL_XOR) := by
  have hxor := xor_ctl_toNat b
  have hrange := (shouldEscape_iff b).1 h
  rw [Ne, low7_eq_esc] at hlow
  have hne : low7 (b ^^^ CTL_XOR) ≠ ESC_CHAR := by
    rw [Ne, low7_eq_esc]
    split at hxor <;> omega
  constructor
  · rw [unescape, if_neg hne, BitVec.xor_assoc, BitVec.xor_self, BitVec.xor_zero]
  · unfold InMarkedRange
    split at hxor <;> omega

/-- A byte that must be escaped becomes a marker and a byte that unescape takes back to it (R104 (a)). -/
theorem escExpand_of_shouldEscape {b : Byte} (h : shouldEscape b = true) :
    ∃ e, escExpand b = [ESC_CHAR, e] ∧ unescape e = b ∧ InMarkedRange e := by
  rcases escExpand_cases b with ⟨hb, -⟩ | ⟨-, hlow, he⟩ | ⟨-, hlow, he⟩
  · cases hb.symm.trans h
  · exact ⟨b, he, if_pos hlow, .inl ((low7_eq_esc b).1 hlow)⟩
  · exact ⟨_, he, unescape_xor_ctl h hlow⟩

/-- So whatever byte stands after esc_expand's marker, unescape recovers the source byte from it. -/
theorem unescape_of_escExpand {b e : Byte} (h : escExpand b = [ESC_CHAR, e]) : unescape e = b := by
  cases hb : shouldEscape b with
  | false => cases (escExpand_of_not_shouldEscape hb).symm.trans h
  | true =>
    obtain ⟨e', he', hinv, -⟩ := escExpand_of_shouldEscape hb
    cases he'.symm.trans h
    exact hinv

/-- One byte, and one more for a byte that must be escaped. -/
theorem escExpand_length (b : Byte) : (escExpand b).length = if shouldEscape b = true then 2 else 1 := by
  rcases escExpand_cases b with ⟨hb, he⟩ | ⟨hb, -, he⟩ | ⟨hb, -, he⟩ <;> rw [hb, he] <;> rfl

/-! ### The payload decoder (R185) -/

theorem unescapePayload_marker (e : Byte) (rest : List Byte) :
    unescapePayload (ESC_CHAR :: e :: rest) = (unescapePayload rest).map (unescape e :: ·) := by
  rw [unescapePayload, if_pos rfl]

theorem unescapePayload_cons_of_ne {b : Byte} (h : b ≠ ESC_CHAR) (rest : List Byte) :
    unescapePayload (b :: rest) = (unescapePayload rest).map (b :: ·) := by
  cases rest with
  | nil => exact if_neg h
  | cons e rest => rw [unescapePayload, if_neg h]

/-- The decoder reads a byte's escaped form as that byte, whatever follows. -/
theorem unescapePayload_escExpand_append (b : Byte) (rest : List Byte) :
    unescapePayload (escExpand b ++ rest) = (unescapePayload rest).map (b :: ·) := by
  cases hb : shouldEscape b with
  | false =>
    have hne : b ≠ ESC_CHAR := by rintro rfl; cases hb
    rw [escExpand_of_not_shouldEscape hb]
    exact unescapePayload_cons_of_ne hne rest
  | true =>
    obtain ⟨e, he, hinv, -⟩ := escExpand_of_shouldEscape hb
    rw [he, ← hinv]
    exact unescapePayload_marker e rest

end Machine

end Sys2Proof
end

section
/-! PROOFS. The escaper: what ESCTST, ESCENC and ESCDEC answer (O11, O12, O13), the four properties of its functions (O14), the length
of an escaped chunk (O15) and that the payload decoder inverts it (O17) (spec/40_escaper.md). -/

namespace Sys2Proof.Machine

/-- Settles O17, by induction on the chunk: the decoder takes off one byte's escaped form at a time. -/
theorem escapingIsInvertible : Obligations.EscapingIsInvertible := by
  intro c
  induction c with
  | nil => rfl
  | cons b bs ih => rw [escaped_cons, unescapePayload_escExpand_append, ih, Option.map_some]

/-- An escaped chunk has one byte more for each byte that must be escaped. -/
theorem escaped_length (c : List Byte) : (escaped c).length = c.length + (c.filter shouldEscape).length := by
  induction c with
  | nil => rfl
  | cons b bs ih =>
    rw [escaped_cons, List.length_append, escExpand_length, ih, List.filter_cons, List.length_cons]
    split
    · rw [List.length_cons]; omega
    · omega

/-- Settles O15: the bytes that must be escaped are between none and all of the chunk. -/
theorem escapedChunkLength : Obligations.EscapedChunkLength := by
  intro c
  have hlen := escaped_length c
  have hle := List.length_filter_le shouldEscape c
  refine ⟨hlen, ?_, ?_⟩ <;> omega

/-- Settles O11, by should_escape in plain arithmetic. -/
theorem esctstTestsTheLowSevenBits : Obligations.EsctstTestsTheLowSevenBits := by
  refine fun s b => ⟨decodeCmd_byte_word 0x10#8 rfl rfl (by decide), ?_⟩
  rw [exec_esctst, if_congr (shouldEscape_iff b) rfl rfl, State.outByte, apply_ite (BitVec.setWidth 16)]
  rfl

/-- Settles O13, by unescape in plain arithmetic. -/
theorem escdecRecoversTheOriginal : Obligations.EscdecRecoversTheOriginal := by
  refine fun s b => ⟨decodeCmd_byte_word 0x12#8 rfl rfl (by decide), ?_⟩
  rw [exec_escdec, outByte_eq, unescape_toNat]
  rfl

/-- ESCENC on a byte that needs no escape answers that byte. -/
theorem exec_escenc_plain {b : Byte} (s : State) (h : shouldEscape b = false) :
    exec (.escenc b) s = .next (s.setOut (BitVec.ofNat 16 b.toNat) 1#2) := by
  rw [exec_escenc, if_pos h, outByte_eq]

/-- ESCENC on an escape character with either bit 7 answers the marker and the byte itself. -/
theorem exec_escenc_literal {b : Byte} (s : State) (h : b.toNat % 128 = 0x23) :
    exec (.escenc b) s = .next (s.setOut (BitVec.ofNat 16 (0x23 + 256 * b.toNat)) 2#2) := by
  have hesc := (shouldEscape_iff b).2 (.inr (.inr h))
  rw [exec_escenc, if_neg (by rw [hesc]; decide), if_pos ((low7_eq_esc b).2 h), outPair_eq]
  rfl

/-- ESCENC on a control byte or DEL answers the marker and the byte with 0x40 flipped. -/
theorem exec_escenc_flipped {b : Byte} (s : State) (h : b.toNat % 128 < 0x20 ∨ b.toNat % 128 = 0x7F) :
    exec (.escenc b) s = .next (s.setOut (BitVec.ofNat 16 (0x23 + 256 * (b ^^^ CTL_XOR).toNat)) 2#2) := by
  have hesc : shouldEscape b = true := (shouldEscape_iff b).2 (by omega)
  have hlow : low7 b ≠ ESC_CHAR := by rw [Ne, low7_eq_esc]; omega
  rw [exec_escenc, if_neg (by rw [hesc]; decide), if_neg hlow, outPair_eq]
  rfl

/-- Settles O12, by the byte's kind: the escape character, a control byte, DEL, or a byte that needs no escape. -/
theorem escencEmitsTheEscapedForm : Obligations.EscencEmitsTheEscapedForm := by
  refine fun s b => ⟨decodeCmd_byte_word 0x11#8 rfl rfl (by decide), ?_⟩
  have hxor := xor_ctl_toNat b
  split
  next hliteral => exact exec_escenc_literal s hliteral
  split
  next hcontrol =>
    rw [if_pos (by omega)] at hxor
    rw [exec_escenc_flipped s (.inl hcontrol), hxor]
    rfl
  split
  next hdel =>
    rw [if_neg (by omega)] at hxor
    rw [exec_escenc_flipped s (.inr hdel), hxor]
    rfl
  next hliteral hcontrol hdel =>
    exact exec_escenc_plain s ((shouldEscape_eq_false_iff b).2 (by omega))

/-- Settles O14. On the bytes after a marker unescape is one-to-one because it recovers the source byte, which determines them. -/
theorem escaperHasItsProperties : Obligations.EscaperHasItsProperties := by
  refine ⟨fun _ => escExpand_of_shouldEscape, fun b hb => ?_, fun b x hx => ?_, by decide, by decide,
    fun a b e f ha hb hef => ?_⟩
  · exact ⟨escExpand_of_not_shouldEscape hb, (shouldEscape_eq_false_iff b).1 hb⟩
  · obtain ⟨hlo, hhi⟩ := escExpand_mem_bounds hx
    exact ⟨hlo, hhi, ne_delimiters_of_bound hlo⟩
  · rw [unescape_of_escExpand ha, unescape_of_escExpand hb] at hef
    subst hef
    cases ha.symm.trans hb
    rfl

end Sys2Proof.Machine
end

section
/-! The printable-value codec: its two directions undo each other, and its commands answer them (spec/41_codec.md). -/

namespace Sys2Proof.Machine

/-- decode undoes encode: adding 32 and then 224 adds 256 (R122). -/
theorem pvDecode_pvEncode {v : Nat} (h : v ≤ 255) : (pvDecode (pvEncode v)).toNat = v := by
  rw [pvDecode_toNat, pvEncode_toNat]
  omega

/-- encode undoes decode (R122). -/
theorem pvEncode_pvDecode (x : Byte) : pvEncode (pvDecode x).toNat = x := by
  apply BitVec.eq_of_toNat_eq
  have := x.isLt
  rw [pvEncode_toNat, pvDecode_toNat]
  omega

/-- Settles O19, by the two round trips. -/
theorem codecRoundTrips : Obligations.CodecRoundTrips :=
  ⟨fun _ => pvDecode_pvEncode, pvEncode_pvDecode⟩

/-- Settles O18, by encode and decode in plain arithmetic. -/
theorem codecCommandsWrapModulo256 : Obligations.CodecCommandsWrapModulo256 := by
  refine fun s v => ⟨decodeCmd_byte_word 0x20#8 rfl rfl (by decide), decodeCmd_byte_word 0x21#8 rfl rfl (by decide), ?_, ?_⟩
  · rw [exec_tochar, outByte_eq, pvEncode_toNat]
    rfl
  · rw [exec_unchar, outByte_eq, pvDecode_toNat]
    rfl

end Sys2Proof.Machine
end

section
/-! PROOFS. The checksum unit: what of a sum the checksum reads, the range of its byte (O21), and what CKSUM answers (O20)
(spec/42_checksum.md). -/

namespace Sys2Proof.Machine

/-- The six bits that are kept and the two that are folded in all lie in the low byte (R131). -/
theorem checksum_mod_256 (v : Nat) : checksum (v % 256) = checksum v := by
  apply BitVec.eq_of_toNat_eq
  have hfold : v % 256 / 64 = v / 64 % 4 := Nat.mod_mul_right_div_self v 64 4
  rw [checksum_toNat, checksum_toNat, hfold, Nat.mod_mod]
  omega

/-- Six bits offset by 0x20 (R130). -/
theorem checksum_bounds (v : Nat) : 0x20 ≤ (checksum v).toNat ∧ (checksum v).toNat ≤ 0x5F := by
  rw [checksum_toNat]
  omega

/-- Settles O21, by the low byte and the range. -/
theorem checksumReadsTheLowByte : Obligations.ChecksumReadsTheLowByte :=
  fun v => ⟨(checksum_mod_256 v).symm, checksum_bounds v⟩

/-- CKSUM's word, its OP's bits and its operand's. -/
theorem encode_cksum (w : Word16) : encode (.cksum w) = 0x30000000#32 ||| w.setWidth 32 :=
  congrArg (· ||| w.setWidth 32) (show (0x30#8).setWidth 32 <<< 24 = 0x30000000#32 by decide)

/-- Settles O20, by CKSUM's word and the checksum in plain arithmetic. -/
theorem cksumFoldsOnce : Obligations.CksumFoldsOnce := by
  intro s w
  constructor
  · rw [← encode_cksum, decodeCmd_encode]
  · rw [exec_cksum, outByte_eq, checksum_toNat]
    rfl

end Sys2Proof.Machine
end

section
/-! PROOFS. The packet encoder: TXCLR and RXCLR (O22), TXPUSH and RXPUSH (O23), and the packet BUILD makes: its fields as numbers
(O24, O27), and that they can be read back (O25) (spec/43_packet_encoder.md). -/

namespace Sys2Proof.Machine

/-! ### Clearing and pushing (R140, R141, R160, R161) -/

/-- Settles O22, by the two commands' words and what each of them does. -/
theorem clearCommandsEmptyTheirBuffer : Obligations.ClearCommandsEmptyTheirBuffer :=
  ⟨decodeCmd_encode_txclr, decodeCmd_encode_rxclr, fun s => ⟨exec_txclr s, exec_rxclr s⟩⟩

/-- Settles O23, by whether each buffer is at its capacity. -/
theorem pushAppendsOrOverflows : Obligations.PushAppendsOrOverflows := by
  refine fun s b => ⟨decodeCmd_byte_word 0x41#8 rfl rfl (by decide), decodeCmd_byte_word 0x51#8 rfl rfl (by decide),
    fun hroom => ?_, fun hfull => ?_, fun hroom => ?_, fun hfull => ?_⟩
  · exact (exec_txpush b s).trans (congrArg _ (if_neg hroom))
  · exact (exec_txpush b s).trans (congrArg _ ((if_pos hfull).trans (recordFault_eq s .chunkOverflow)))
  · exact (exec_rxpush b s).trans (congrArg _ (if_neg hroom))
  · exact (exec_rxpush b s).trans (congrArg _ ((if_pos hfull).trans (recordFault_eq s .rxOverflow)))

/-! ### The packet's fields (R142) -/

/-- encode as a literal's value: the byte keeps the low 8 bits (R120). -/
theorem pvEncode_eq (v : Nat) : pvEncode v = BitVec.ofNat 8 (v + 32) :=
  BitVec.eq_of_toNat_eq (by rw [pvEncode_toNat, BitVec.toNat_ofNat])

/-- An escaped chunk within capacity is at most 2 · 110 bytes long (R9). -/
theorem escaped_length_le_of_capacity {c : Config} {chunk : List Byte} (hc : c.wf = true)
    (h : chunk.length ≤ c.maxChunk.toNat) :
    (escaped chunk).length ≤ 2 * c.maxChunk.toNat ∧ (escaped chunk).length ≤ 220 := by
  obtain ⟨-, hmax, -⟩ := Config.wf_bounds hc
  have hesc := escaped_length_le chunk
  omega

/-- Neither the length byte nor the sequence byte wraps, so the packet's sum is that of the numbers they encode (R131, R142). -/
theorem dataPacketSum_eq {p : List Byte} (s : State) (fType : Byte) (h : p.length ≤ 220) :
    dataPacketSum s.seqByte fType p =
      (p.length + 35) + (s.seq.toNat + 32) + fType.toNat + (p.map BitVec.toNat).sum := by
  have hseq := s.seq.isLt
  simp only [dataPacketSum, packetSum, pvEncode_toNat, seqByte_toNat, byteSum_eq_sum, HDR_COUNT]
  omega

/-- SUM holds it (R131). -/
theorem dataPacketSum_lt {p : List Byte} (s : State) (fType : Byte) (h : p.length ≤ 220) :
    dataPacketSum s.seqByte fType p < 2 ^ 16 := by
  have hseq := s.seq.isLt
  have htype := fType.isLt
  have hbytes := byteSum_le p
  rw [dataPacketSum_eq s fType h, ← byteSum_eq_sum]
  omega

/-- The packet with its fields as numbers. -/
theorem dataPacket_eq (s : State) (fType : Byte) (p : List Byte) :
    dataPacket s.seqByte fType p =
      [0x01#8, BitVec.ofNat 8 (p.length + 35), BitVec.ofNat 8 (s.seq.toNat + 32), fType] ++ p
        ++ [checksum (dataPacketSum s.seqByte fType p), 0x0D#8] := by
  rw [← seqByte_toNat, ← pvEncode_eq s.seqByte.toNat, ← pvEncode_eq (p.length + 3)]
  rfl

/-- After BUILD of a chunk within capacity PKT_LEN is the packet's length, unwrapped (R142). -/
theorem pktLen_toNat_of_build {s t : State} (ht : exec .build s = .next t) (h : (escaped s.mem.chunk).length ≤ 220) :
    t.pktLen.toNat = (escaped s.mem.chunk).length + 6 := by
  rw [exec_build] at ht
  cases ht
  rw [State.pktLen, State.setSum_mem, State.setMem_mem, Memory.replace_pkt, dataPacket_length, BitVec.toNat_ofNat]
  omega

/-- Settles O24: neither the fields nor SUM nor PKT_LEN wraps. -/
theorem buildAssemblesThePacket : Obligations.BuildAssemblesThePacket := by
  refine ⟨decodeCmd_encode_build, fun s hc hchunk => ?_⟩
  obtain ⟨hcap, hlen⟩ := escaped_length_le_of_capacity hc hchunk
  have hsum := dataPacketSum_eq s s.cfg.typeData hlen
  refine ⟨_, exec_build s, rfl, ?_, pktLen_toNat_of_build (exec_build s) hlen, by omega, ?_⟩
  · rw [← hsum, ← checksum_eq]
    exact dataPacket_eq s s.cfg.typeData _
  · rw [← hsum, State.setSum_sum, BitVec.toNat_ofNat, Nat.mod_eq_of_lt (dataPacketSum_lt s _ hlen)]

/-- Settles O27: the escaped form of the empty chunk is empty, so the length byte is encode(3). -/
theorem emptyChunkPacket : Obligations.EmptyChunkPacket := by
  intro s hchunk
  have hsum := dataPacketSum_eq s s.cfg.typeData (p := []) (Nat.zero_le _)
  rw [exec_build, hchunk, escaped_nil, dataPacket_eq, checksum_eq, hsum]
  rfl

/-! ### Reading it back (R145) -/

/-- An encoded value that does not wrap is no delimiter: it is at least 0x20 (R82, R120). -/
theorem pvEncode_ne_delimiters {v : Nat} (h : v ≤ 223) : pvEncode v ≠ START ∧ pvEncode v ≠ EOL := by
  have hval := pvEncode_toNat v
  have hstart : START.toNat = 0x01 := rfl
  have heol : EOL.toNat = 0x0D := rfl
  constructor <;> intro he <;> rw [he] at hval <;> omega

/-- Nor is a checksum byte, whose low 7 bits are at least 0x20 (R130). -/
theorem checksum_ne_delimiters (v : Nat) : checksum v ≠ START ∧ checksum v ≠ EOL := by
  obtain ⟨hlo, hhi⟩ := checksum_bounds v
  exact ne_delimiters_of_bound (by omega)

/-- Settles O25: decode undoes encode on both fields, and every byte between the delimiters but the type byte is an encoded value,
an escaped byte or the checksum byte. -/
theorem builtPacketIsSelfDelimiting : Obligations.BuiltPacketIsSelfDelimiting := by
  intro s t hc hchunk ht
  obtain ⟨-, hlen⟩ := escaped_length_le_of_capacity hc hchunk
  have hpktLen := pktLen_toNat_of_build ht hlen
  have hseq := seqByte_toNat s
  have hseqLt := s.seq.isLt
  have hlenField : (pvDecode (pvEncode ((escaped s.mem.chunk).length + 3))).toNat = (escaped s.mem.chunk).length + 3 :=
    pvDecode_pvEncode (by omega)
  have hseqField : (pvDecode (pvEncode s.seqByte.toNat)).toNat = s.seq.toNat := by
    rw [pvDecode_pvEncode (by omega), hseq]
  cases ht
  refine ⟨pvEncode ((escaped s.mem.chunk).length + 3), pvEncode s.seqByte.toNat, s.cfg.typeData, _, rfl, ?_, hlenField,
    hseqField, rfl, rfl, ?_⟩
  · rw [hlenField, hpktLen]
    omega
  · intro e he
    rw [List.mem_cons, List.mem_cons, List.mem_append, List.mem_singleton] at he
    rcases he with rfl | rfl | hp | rfl
    · exact pvEncode_ne_delimiters (by omega)
    · exact pvEncode_ne_delimiters (by omega)
    · exact ne_delimiters_of_bound (escaped_mem_bounds hp).1
    · exact checksum_ne_delimiters _

end Sys2Proof.Machine
end

section
/-! PROOFS. The acknowledgment decoder: what ACKCHK answers on a frame of 6 bytes (O29) and of any other length (O28), and that the
sequence byte is compared on 8 bits (O30) (spec/44_ack_decoder.md). -/

namespace Sys2Proof.Machine

/-! ### Frames of other lengths (R167) -/

theorem decodeAck_of_length_ne_six {f : List Byte} (h : f.length ≠ 6) (c : Config) (expected : Byte) :
    decodeAck c f expected = .checksumInvalid := by
  unfold decodeAck
  split
  · exact absurd rfl h
  · rfl

theorem ackSum_of_length_ne_six {f : List Byte} (h : f.length ≠ 6) : ackSum f = none := by
  unfold ackSum
  split
  · exact absurd rfl h
  · rfl

/-- Settles O28: at such a length decode_ack fails its first check, and no sum is computed. -/
theorem ackchkRejectsOtherLengths : Obligations.AckchkRejectsOtherLengths := by
  intro s h
  rw [exec_ackchk, decodeAck_of_length_ne_six h, ackSum_of_length_ne_six h]
  rfl

/-! ### Frames of 6 bytes (R162 to R164) -/

/-- The code of decode_ack's result, its checks in plain arithmetic. -/
theorem ackCode_decodeAck_six (c : Config) (f0 f1 f2 f3 f4 f5 expected : Byte) :
    ackCode (decodeAck c [f0, f1, f2, f3, f4, f5] expected) =
      let sum := f1.toNat + f2.toNat + f3.toNat
      if f4.toNat ≠ 32 + (sum + sum / 64 % 4) % 64 then 3#3
      else if (f2.toNat + 224) % 256 ≠ expected.toNat then 4#3
      else if f3 = c.typeAck then 1#3
      else if f3 = c.typeNack then 2#3
      else 5#3 := by
  simp only [decodeAck, apply_ite ackCode, ← BitVec.toNat_inj (x := f4), ← BitVec.toNat_inj (x := pvDecode f2), ne_eq, checksum_toNat,
    pvDecode_toNat]
  rfl

/-- Settles O29, by whether the frame has 6 bytes. -/
theorem ackchkDecodesTheFrame : Obligations.AckchkDecodesTheFrame := by
  refine ⟨decodeCmd_encode_ackchk, fun s => ?_⟩
  split
  next hrx =>
    rw [exec_ackchk, hrx, ackCode_decodeAck_six, seqByte_toNat]
    rfl
  next hother =>
    refine ackchkRejectsOtherLengths s fun hlen => ?_
    match hrx : s.mem.rx, hlen with
    | [_, _, _, _, _, _], _ => exact hother _ _ _ _ _ _ hrx

/-! ### The sequence comparison (R168) -/

/-- Past a valid checksum the code is SEQUENCE_INVALID exactly on a sequence byte that decodes to another number: the type check leaves
other codes. -/
theorem ackCode_decodeAck_eq_sequenceInvalid_iff (c : Config) (f0 f1 f2 f3 f5 expected : Byte) :
    ackCode (decodeAck c [f0, f1, f2, f3, checksum (f1.toNat + f2.toNat + f3.toNat), f5] expected) = 4#3 ↔
      (pvDecode f2).toNat ≠ expected.toNat := by
  rw [ackCode_decodeAck_six, pvDecode_toNat]
  simp only [checksum_toNat]
  rw [if_neg (not_not_intro rfl)]
  split
  next hne => exact iff_of_true rfl hne
  next heq =>
    refine iff_of_false ?_ heq
    split
    · decide
    · split <;> decide

/-- A byte up to 0x1F or from 0xA0 on decodes to at least 128, which no sequence number reaches (R121). -/
theorem pvDecode_ne_seq_of_bound {x : Byte} (h : x.toNat ≤ 0x1F ∨ 0xA0 ≤ x.toNat) (n : BitVec 7) :
    (pvDecode x).toNat ≠ n.toNat := by
  have hx := x.isLt
  have hn := n.isLt
  rw [pvDecode_toNat]
  omega

/-- Settles O30: both clauses are of the one comparison. -/
theorem sequenceByteIsNotReduced : Obligations.SequenceByteIsNotReduced := by
  intro s t f0 f1 f2 f3 f5 hrx ht
  have hiff : t.ackres = 4#3 ↔ (pvDecode f2).toNat ≠ s.seq.toNat := by
    rw [exec_ackchk] at ht
    cases ht
    rw [noteSum_ackres, State.setAckres_ackres, hrx, ackCode_decodeAck_eq_sequenceInvalid_iff, seqByte_toNat]
  exact ⟨hiff, fun hbound => hiff.2 (pvDecode_ne_seq_of_bound hbound s.seq)⟩

end Sys2Proof.Machine
end

section
/-! SUPPORT. What a data check sees of a frame, said once: decode_data on a frame taken apart into its fields, and the frames it
accepts (spec/45_data_decoder.md R180, R181). -/

namespace Sys2Proof.Machine

/-! ### A frame and its fields (Table R80) -/

section
variable (start len seq type : Byte) (payload : List Byte) (ck eol : Byte)

/-- A frame of these field bytes, whatever they are. -/
def frame : List Byte := start :: len :: seq :: type :: (payload ++ [ck, eol])

theorem frame_length : (frame start len seq type payload ck eol).length = payload.length + 6 := by
  simp [frame]

theorem frame_getD_header :
    (frame start len seq type payload ck eol).getD 0 0 = start ∧ (frame start len seq type payload ck eol).getD 1 0 = len
      ∧ (frame start len seq type payload ck eol).getD 2 0 = seq ∧ (frame start len seq type payload ck eol).getD 3 0 = type :=
  ⟨rfl, rfl, rfl, rfl⟩

theorem frame_getElem?_checksum : (frame start len seq type payload ck eol)[payload.length + 4]? = some ck := by
  simp [frame]

theorem frame_getElem?_eol : (frame start len seq type payload ck eol)[payload.length + 5]? = some eol := by
  simp [frame]

theorem frame_getD_checksum : (frame start len seq type payload ck eol).getD (payload.length + 4) 0 = ck := by
  rw [List.getD_eq_getElem?_getD, frame_getElem?_checksum, Option.getD_some]

theorem frame_getD_eol : (frame start len seq type payload ck eol).getD (payload.length + 5) 0 = eol := by
  rw [List.getD_eq_getElem?_getD, frame_getElem?_eol, Option.getD_some]

theorem frame_take_payload : ((frame start len seq type payload ck eol).drop 4).take payload.length = payload := by
  simp [frame]

theorem frame_slice_payload : slice (frame start len seq type payload ck eol) 4 (payload.length + 4) = payload := by
  rw [slice, Nat.add_sub_cancel, frame_take_payload]

/-- decode_data's checks on the fields, in order; the payload decides the last of them (R181). -/
theorem decodeData_frame (fType : Byte) :
    decodeData fType (frame start len seq type payload ck eol) =
      if start ≠ START then .badStart
      else if (pvDecode len).toNat ≠ payload.length + 3 then .badLength
      else if eol ≠ EOL then .badTerminator
      else if ck ≠ checksum (packetSum len seq type payload) then .checksumInvalid (packetSum len seq type payload)
      else if type ≠ fType then .unexpectedType (packetSum len seq type payload)
      else (unescapePayload payload).elim (.badEscape (packetSum len seq type payload))
        (.ok (packetSum len seq type payload) (pvDecode seq)) := by
  unfold decodeData
  simp only [frame_length, Nat.reduceSubDiff, frame_getElem?_checksum, frame_getElem?_eol, frame_slice_payload]
  rw [if_neg (by omega)]
  simp only [frame, ne_eq, Option.some.injEq]
  cases unescapePayload payload <;> rfl

theorem decodeData_frame_eq_ok_iff {fType : Byte} {v : Nat} {q : Byte} {out : List Byte} :
    decodeData fType (frame start len seq type payload ck eol) = .ok v q out ↔
      start = START ∧ (pvDecode len).toNat = payload.length + 3 ∧ eol = EOL
        ∧ ck = checksum (packetSum len seq type payload) ∧ type = fType
        ∧ unescapePayload payload = some out ∧ packetSum len seq type payload = v ∧ pvDecode seq = q := by
  rw [decodeData_frame]
  simp only [ite_eq_iff, ne_eq, not_not, reduceCtorEq, and_false, false_or]
  cases unescapePayload payload with
  | none => simp
  | some o => simp [and_comm, and_left_comm]

end

/-- Every frame long enough for an empty packet has these fields. -/
theorem exists_frame_of_length {f : List Byte} (h : 6 ≤ f.length) :
    ∃ start len seq type payload ck eol, f = frame start len seq type payload ck eol := by
  match f, h with
  | start :: len :: seq :: type :: rest, h =>
    have hrest : (rest.drop (rest.length - 2)).length = 2 := by
      simp only [List.length_cons] at h
      rw [List.length_drop]
      omega
    obtain ⟨ck, eol, htail⟩ := List.length_eq_two.1 hrest
    exact ⟨start, len, seq, type, rest.take (rest.length - 2), ck, eol, by rw [frame, ← htail, List.take_append_drop]⟩

/-- A shorter one fails the first check (R181). -/
theorem decodeData_of_length_lt {f : List Byte} (h : f.length < 6) (fType : Byte) : decodeData fType f = .badLength :=
  if_pos h

/-! ### The frames that are accepted (R180) -/

/-- A packet is the frame of its own fields (Table R80). -/
theorem dataPacket_eq_frame (q fType : Byte) (p : List Byte) :
    dataPacket q fType p =
      frame START (pvEncode (p.length + 3)) (pvEncode q.toNat) fType p (checksum (dataPacketSum q fType p)) EOL := rfl

/-- decode undoes encode on every byte (R122). -/
theorem pvDecode_pvEncode_byte (q : Byte) : pvDecode (pvEncode q.toNat) = q :=
  BitVec.eq_of_toNat_eq (pvDecode_pvEncode (Nat.le_of_lt_succ q.isLt))

/-- decode_data answers OK exactly on the data packets whose payload decodes: the length byte and the sequence byte are the encoded
forms of what they decode to. -/
theorem decodeData_eq_ok_iff {fType : Byte} {f : List Byte} {v : Nat} {q : Byte} {out : List Byte} :
    decodeData fType f = .ok v q out ↔
      ∃ p, p.length + 3 ≤ 255 ∧ f = dataPacket q fType p ∧ dataPacketSum q fType p = v ∧ unescapePayload p = some out := by
  constructor
  · intro h
    rcases Nat.lt_or_ge f.length 6 with hshort | hlong
    · cases (decodeData_of_length_lt hshort fType).symm.trans h
    obtain ⟨start, len, seq, type, p, ck, eol, rfl⟩ := exists_frame_of_length hlong
    obtain ⟨rfl, hlen, rfl, rfl, rfl, hp, rfl, rfl⟩ := (decodeData_frame_eq_ok_iff ..).1 h
    have hsum : dataPacketSum (pvDecode seq) type p = packetSum len seq type p := by
      rw [dataPacketSum, pvEncode_pvDecode, HDR_COUNT, ← hlen, pvEncode_pvDecode]
    refine ⟨p, hlen ▸ Nat.le_of_lt_succ (pvDecode len).isLt, ?_, hsum, hp⟩
    rw [dataPacket_eq_frame, hsum, pvEncode_pvDecode, ← hlen, pvEncode_pvDecode]
  · rintro ⟨p, hlen, rfl, rfl, hp⟩
    rw [dataPacket_eq_frame, decodeData_frame_eq_ok_iff]
    exact ⟨rfl, pvDecode_pvEncode hlen, rfl, rfl, rfl, hp, rfl, pvDecode_pvEncode_byte q⟩

end Sys2Proof.Machine
end

section
/-! PROOFS. The payload decoder up to the first marker (O35), and DATCHK: its answer check by check (O32) and the frames it accepts
(O33) (spec/45_data_decoder.md). -/

namespace Sys2Proof.Machine

/-! ### The payload decoder (R185) -/

/-- Up to the first marker the decoder copies. -/
theorem unescapePayload_append {p : List Byte} (h : ESC_CHAR ∉ p) (rest : List Byte) :
    unescapePayload (p ++ rest) = (unescapePayload rest).map (p ++ ·) := by
  induction p with
  | nil => simp
  | cons b p ih =>
    obtain ⟨hb, hp⟩ := List.ne_and_not_mem_of_not_mem_cons h
    rw [List.cons_append, unescapePayload_cons_of_ne hb.symm, ih hp, Option.map_map]
    rfl

/-- Settles O35: what stands before the first marker is copied, and what stands from it on is decoded by itself. -/
theorem payloadDecoderIsLenient : Obligations.PayloadDecoderIsLenient := by
  intro p hp
  refine ⟨?_, unescapePayload_append hp [ESC_CHAR], fun e rest => ?_⟩
  · have hcopied := unescapePayload_append hp []
    rwa [List.append_nil, unescapePayload, Option.map_some, List.append_nil] at hcopied
  · rw [unescapePayload_append hp, unescapePayload_marker, Option.map_map]
    rfl

/-! ### DATCHK (R182) -/

/-- What DATCHK makes of a state, by decode_data's answer. -/
def State.recordData (s : State) (r : DataResult) : State :=
  ((s.setDatres (dataCode r)).noteSum (dataSum r)).storePayload r

theorem exec_datchk_recordData (s : State) :
    exec .datchk s = .next (s.recordData (decodeData s.cfg.typeData s.mem.rx)) := exec_datchk s

/-- DATRES is OK exactly on that answer (R25). -/
theorem dataCode_eq_ok_iff (r : DataResult) : dataCode r = 1#3 ↔ ∃ v q out, r = .ok v q out := by
  cases r <;> simp [dataCode]

/-- Settles O32, by whether the frame is long enough to have fields; the checks on them are then the same ones in plain arithmetic. -/
theorem datchkReportsTheFirstFailingCheck : Obligations.DatchkReportsTheFirstFailingCheck := by
  intro s
  refine ⟨decodeCmd_encode .datchk, ?_⟩
  rw [exec_datchk_recordData]
  dsimp only
  rcases Nat.lt_or_ge s.mem.rx.length 6 with hshort | hlong
  · rw [decodeData_of_length_lt hshort, if_pos hshort]
    rfl
  obtain ⟨start, len, seq, type, p, ck, eol, hf⟩ := exists_frame_of_length hlong
  obtain ⟨hstart, hlen, hseq, htype⟩ := frame_getD_header start len seq type p ck eol
  rw [if_neg (Nat.not_lt.2 hlong), hf, decodeData_frame]
  simp only [frame_length, Nat.reduceSubDiff, Nat.add_sub_cancel, frame_take_payload, frame_getD_checksum, frame_getD_eol,
    hstart, hlen, hseq, htype, packetSum, byteSum_eq_sum, pvDecode_toNat, ← BitVec.toNat_inj (x := ck), checksum_toNat, ne_eq]
  rw [← hf]
  simp only [apply_ite s.recordData]
  -- check by check the two sides now agree, but for the payload's two outcomes
  cases unescapePayload p <;> rfl

/-- Settles O33, by the packets decode_data accepts: any sequence byte is the encoded form of what it decodes to. -/
theorem datchkAcceptsExactlyDataPackets : Obligations.DatchkAcceptsExactlyDataPackets := by
  intro s t ht
  rw [exec_datchk_recordData] at ht
  cases ht
  refine ⟨fun hcode => ?_, fun q p out ⟨hlen, hrx⟩ hp => ?_⟩
  · rw [State.recordData, storePayload_datres, noteSum_datres, State.setDatres_datres, dataCode_eq_ok_iff] at hcode
    obtain ⟨v, q, out, hok⟩ := hcode
    obtain ⟨p, hlen, hrx, -, hp⟩ := decodeData_eq_ok_iff.1 hok
    rw [hok]
    exact ⟨pvEncode q.toNat, p, ⟨hlen, hrx⟩, hp, (pvDecode_pvEncode_byte q).symm⟩
  · have hpacket : s.mem.rx = dataPacket (pvDecode q) s.cfg.typeData p := by
      rw [dataPacket_eq_frame, dataPacketSum, pvEncode_pvDecode]
      exact hrx
    rw [decodeData_eq_ok_iff.2 ⟨p, hlen, hpacket, rfl, hp⟩]
    exact ⟨rfl, rfl, rfl⟩

end Sys2Proof.Machine
end

section
/-! PROOFS. BUILD, a push of each byte of PKT into an empty RX, and DATCHK, end to end (O36) (spec/45_data_decoder.md R187). -/

namespace Sys2Proof.Machine

/-- Commands run one after another (R58). -/
theorem runCommands_cons {i : Instr} {s t : State} (h : exec i s = .next t) (is : List Instr) :
    runCommands (i :: is) s = runCommands is t := by
  rw [runCommands, h]

/-- A run of RXPUSH within RX's capacity appends its bytes (R161). -/
theorem runCommands_rxpush_append {bs : List Byte} {s : State}
    (h : s.mem.rx.length + bs.length ≤ capacity s.cfg .rx) (is : List Instr) :
    runCommands (bs.map .rxpush ++ is) s = runCommands is (s.setMem { s.mem with rx := s.mem.rx ++ bs }) := by
  induction bs generalizing s with
  | nil => rw [List.append_nil]; rfl
  | cons b bs ih =>
    rw [List.length_cons] at h
    have hfits : (s.mem.rx ++ [b]).length + bs.length ≤ capacity s.cfg .rx := by
      rw [List.length_append, List.length_singleton]
      omega
    rw [List.map_cons, List.cons_append, runCommands_cons (exec_rxpush_of_lt b (by omega)),
      ih (s := s.setMem (s.mem.push .rx b)) hfits, State.setMem_mem, Memory.push_rx, List.append_assoc]
    rfl

/-- Load RX with a frame within its capacity and check it: DATCHK records decode_data's answer on the frame (R182). -/
theorem runCommands_receive {t : State} {f : List Byte} {r : DataResult} (hfits : f.length ≤ capacity t.cfg .rx)
    (hr : decodeData t.cfg.typeData f = r) :
    runCommands (.rxclr :: f.map .rxpush ++ [.datchk]) t = .next ((t.setMem { t.mem with rx := f }).recordData r) := by
  rw [List.cons_append, runCommands_cons (exec_rxclr t), runCommands_rxpush_append,
    runCommands_cons (exec_datchk_recordData _)]
  · subst hr; rfl
  · simpa using hfits

/-- Settles O36: RX comes to hold the packet, which decode_data accepts, and its payload decodes to the chunk. -/
theorem buildThenDatchkRoundTrips : Obligations.BuildThenDatchkRoundTrips := by
  intro s t hc hchunk ht
  obtain ⟨-, hlen⟩ := escaped_length_le_of_capacity hc hchunk
  have hfits := dataPacket_length_le_capacity s.seqByte s.cfg.typeData hchunk
  have hok : decodeData s.cfg.typeData (dataPacket s.seqByte s.cfg.typeData (escaped s.mem.chunk)) =
      .ok (dataPacketSum s.seqByte s.cfg.typeData (escaped s.mem.chunk)) s.seqByte s.mem.chunk :=
    decodeData_eq_ok_iff.2 ⟨_, by omega, rfl, rfl, escapingIsInvertible s.mem.chunk⟩
  rw [exec_build] at ht
  cases ht
  exact ⟨_, runCommands_receive hfits hok, rfl⟩

end Sys2Proof.Machine
end

section
/-! SUPPORT. Which command the host issues at each position, and that it otherwise leaves the BLOCK alone (spec/48_host_controller.md
R220 to R233). -/

namespace Sys2Proof.Machine

/-- The command the host issues next, if its next action is a command (R224 to R230). -/
def Controller.command (h : Controller) : Option Instr :=
  match h.hpc with
  | .idleSeqrst => some .seqrst
  | .chunkClear => some .txclr
  | .chunkFill => some (match h.fileBytes with | b :: _ => .txpush b | [] => .build)
  | .recvClear => some .rxclr
  | .recvFill => some (match h.recvBytes with | b :: _ => .rxpush b | [] => .ackchk)
  | .advSeqinc => some .seqinc
  | _ => none

/-- The host issues SEQRST at the start of Idle alone, and SEQINC in Advance alone (R203, R224, R230). -/
theorem Controller.command_seq_iff (h : Controller) :
    (h.command = some .seqrst ↔ h.hpc = .idleSeqrst) ∧ (h.command = some .seqinc ↔ h.hpc = .advSeqinc) := by
  unfold command
  cases h.hpc with
  | chunkFill => cases h.fileBytes <;> simp
  | recvFill => cases h.recvBytes <;> simp
  | _ => simp

/-- At a position with a command the host's step issues its word, with the session moved on. -/
theorem ctlStep_of_command {s : State} {i : Instr} (h : s.host.command = some i) :
    ∃ c, ctlStep s = issue (encode i) (s.setHost c) := by
  unfold Controller.command at h
  unfold ctlStep
  cases hp : s.host.hpc with
  | idleSeqrst | chunkClear | recvClear | advSeqinc =>
    simp only [hp, Option.some.injEq] at h
    subst h
    exact ⟨_, rfl⟩
  | chunkFill =>
    simp only [hp, Option.some.injEq] at h
    subst h
    unfold ctlChunkFill
    cases s.host.fileBytes <;> exact ⟨_, rfl⟩
  | recvFill =>
    simp only [hp, Option.some.injEq] at h
    subst h
    unfold ctlRecvFill
    cases s.host.recvBytes <;> exact ⟨_, rfl⟩
  | _ => simp [hp] at h

/-- A next state of this outcome differs from s in the session and the collaborators alone. -/
def KeepsBlock (s : State) (o : Host.Outcome State Fault Refusal) : Prop :=
  ∀ t, o = .next t → t = (s.setEnv t.env).setHost t.host

theorem KeepsBlock.moves (s : State) (e : Env) (c : Controller) : KeepsBlock s (.next ((s.setEnv e).setHost c)) :=
  fun _ h => by cases h; rfl

theorem KeepsBlock.movesHost (s : State) (c : Controller) : KeepsBlock s (.next (s.setHost c)) := .moves s s.env c

theorem KeepsBlock.fault (s : State) (r : Fault) : KeepsBlock s (.fault r) := fun _ h => by cases h

theorem ctlOpen_keepsBlock (s : State) : KeepsBlock s (ctlOpen s) := by
  unfold ctlOpen
  split <;> exact .moves s _ _

theorem ctlInit_keepsBlock (s : State) : KeepsBlock s (ctlInit s) := by
  unfold ctlInit
  split
  · exact .fault s _
  · exact .movesHost s _

theorem ctlChunkRead_keepsBlock (s : State) : KeepsBlock s (ctlChunkRead s) := by
  unfold ctlChunkRead
  split
  · exact .fault s _
  · split
    · exact .fault s _
    · exact .movesHost s _

theorem ctlSend_keepsBlock (s : State) : KeepsBlock s (ctlSend s) := by
  unfold ctlSend
  split <;> exact .moves s _ _

theorem ctlDispatch_keepsBlock (s : State) : KeepsBlock s (ctlDispatch s) := by
  unfold ctlDispatch
  split
  · exact .movesHost s _
  · split
    · exact .movesHost s _
    · exact .fault s _

theorem ctlRetryDecide_keepsBlock (s : State) : KeepsBlock s (ctlRetryDecide s) := by
  unfold ctlRetryDecide
  split <;> exact .movesHost s _

theorem ctlComplete_keepsBlock (s : State) : KeepsBlock s (ctlComplete s) := by
  unfold ctlComplete
  split <;> exact .moves s _ _

/-- At a position with no command the host's step keeps the BLOCK (R220). -/
theorem ctlStep_keepsBlock {s : State} (h : s.host.command = none) : KeepsBlock s (ctlStep s) := by
  unfold ctlStep
  cases hp : s.host.hpc with
  | idleSeqrst | chunkClear | chunkFill | recvClear | recvFill | advSeqinc => simp [Controller.command, hp] at h
  | idleOpen => exact ctlOpen_keepsBlock s
  | idleInit => exact ctlInit_keepsBlock s
  | chunkRead => exact ctlChunkRead_keepsBlock s
  | sendWrite => exact ctlSend_keepsBlock s
  | recvRead => exact .moves s _ _
  | recvDispatch => exact ctlDispatch_keepsBlock s
  | retryDecide => exact ctlRetryDecide_keepsBlock s
  | completeWrite => exact ctlComplete_keepsBlock s
  | idleGoto | chunkSize | chunkRetryZero | chunkGoto | recvDelay | advAccount | advRetryZero | advGoto | retryCount | retryLog
  | done | abort => exact .movesHost s _

end Sys2Proof.Machine
end

section
/-! PROOFS. The sequence tracker: SEQRST and SEQINC (O9), SEQ over any words at the port (O10), and SEQ in a conforming transfer (O51)
(spec/46_sequence_tracker.md R200 to R203). -/

namespace Sys2Proof.Machine

/-! ### What a command and a word do to SEQ -/

/-- Settles O9, by the two commands' words and what each of them does. -/
theorem sequenceCommandsWriteSeq : Obligations.SequenceCommandsWriteSeq :=
  ⟨decodeCmd_encode_seqrst, decodeCmd_encode_seqinc,
    fun s => ⟨exec_seqrst s, _, exec_seqinc s, BitVec.toNat_add s.seq 1#7, rfl⟩⟩

/-- Every other command leaves SEQ (Table R22). -/
theorem exec_seq_of_ne {i : Instr} {s t : State} (hrst : i ≠ .seqrst) (hinc : i ≠ .seqinc) (h : exec i s = .next t) :
    t.seq = s.seq := by
  by_contra hne
  obtain ⟨hseq, -⟩ := registersWrittenOnlyAsTabled i s t h
  exact (hseq hne).elim hrst hinc

theorem issue_encode (i : Instr) (s : State) : issue (encode i) s = exec i s := issue_of_decode (decodeCmd_encode i) s

/-- The word of SEQINC adds 1 modulo 128 (R201). -/
theorem issue_seqinc (s : State) : issue (encode .seqinc) s = .next (s.setSeq (s.seq + 1#7)) :=
  (issue_encode .seqinc s).trans (exec_seqinc s)

/-- Every word but the two is taken and leaves SEQ: one that is no command's records its fault (R262). -/
theorem issue_seq_of_ne {w : Command} (hrst : w ≠ encode .seqrst) (hinc : w ≠ encode .seqinc) (s : State) :
    ∃ t, issue w s = .next t ∧ t.seq = s.seq := by
  cases hd : decodeCmd w with
  | instr i =>
    have hw := eq_encode_of_decodeCmd hd
    obtain ⟨t, ht⟩ := exec_completes i s
    exact ⟨t, (issue_of_decode hd s).trans ht,
      exec_seq_of_ne (fun hi => hrst (hi ▸ hw)) (fun hi => hinc (hi ▸ hw)) ht⟩
  | fault c => exact ⟨_, issue_of_fault hd s, recordFault_seq s c⟩

/-! ### SEQ counts the SEQINC words (R202) -/

theorem issueAll_cons {w : Command} {s t : State} (h : issue w s = .next t) (ws : List Command) :
    issueAll (w :: ws) s = issueAll ws t := by
  rw [issueAll, h]

/-- Without a SEQRST word, SEQ grows by the number of SEQINC words, from any SEQ. -/
theorem issueAll_seq {ws : List Command} {s : State} (hrst : encode .seqrst ∉ ws) :
    ∃ t, issueAll ws s = .next t ∧ t.seq.toNat = (s.seq.toNat + ws.count (encode .seqinc)) % 128 := by
  induction ws generalizing s with
  | nil => exact ⟨s, rfl, (Nat.mod_eq_of_lt s.seq.isLt).symm⟩
  | cons w ws ih =>
    obtain ⟨hw, hws⟩ := not_or.1 (mt List.mem_cons.2 hrst)
    by_cases hinc : w = encode .seqinc
    · subst hinc
      obtain ⟨t, ht, hseq⟩ := ih (s := s.setSeq (s.seq + 1#7)) hws
      refine ⟨t, (issueAll_cons (issue_seqinc s) ws).trans ht, ?_⟩
      rw [State.setSeq_seq, BitVec.toNat_add, BitVec.toNat_ofNat] at hseq
      rw [List.count_cons_self]
      omega
    · obtain ⟨u, hu, hkeep⟩ := issue_seq_of_ne (Ne.symm hw) hinc s
      obtain ⟨t, ht, hseq⟩ := ih (s := u) hws
      refine ⟨t, (issueAll_cons hu ws).trans ht, ?_⟩
      rwa [List.count_cons_of_ne hinc, ← hkeep]

/-- Settles O10, by the count from any SEQ, at 0. -/
theorem seqCountsModulo128 : Obligations.SeqCountsModulo128 := by
  intro s ws h0 hrst
  obtain ⟨t, ht, hseq⟩ := issueAll_seq (s := s) hrst
  refine ⟨t, ht, hseq.trans ?_⟩
  rw [h0, BitVec.toNat_ofNat, Nat.zero_mod, Nat.zero_add]
  rfl

/-! ### SEQ in a transfer (R203) -/

/-- A host's step that issues neither SEQRST nor SEQINC leaves SEQ. -/
theorem ctlStep_seq_of_command_ne {s t : State} (hrst : s.host.command ≠ some .seqrst)
    (hinc : s.host.command ≠ some .seqinc) (h : ctlStep s = .next t) : t.seq = s.seq := by
  cases hcmd : s.host.command with
  | none => rw [ctlStep_keepsBlock hcmd t h]; rfl
  | some i =>
    obtain ⟨c, hc⟩ := ctlStep_of_command hcmd
    rw [hc, issue_encode] at h
    exact exec_seq_of_ne (s := s.setHost c) (fun hi => hrst (hi ▸ hcmd)) (fun hi => hinc (hi ▸ hcmd)) h

/-- Settles O51, by the position: the start of Idle, Advance's SEQINC, or one whose command, if any, leaves SEQ. -/
theorem hostAdvancesSeqOnlyInAdvance : Obligations.HostAdvancesSeqOnlyInAdvance := by
  intro s t hconf hstep
  obtain ⟨-, hprog, -⟩ := hconf
  rw [step_controller s hprog] at hstep
  obtain ⟨hrst, hinc⟩ := s.host.command_seq_iff
  split
  next hidle =>
    obtain ⟨c, hc⟩ := ctlStep_of_command (hrst.2 hidle)
    cases (hc.trans (issue_encode _ _)).symm.trans hstep
    rfl
  next hnotIdle =>
    split
    next hadv =>
      obtain ⟨c, hc⟩ := ctlStep_of_command (hinc.2 hadv)
      cases (hc.trans (issue_seqinc _)).symm.trans hstep
      rfl
    next hnotAdv => exact ctlStep_seq_of_command_ne (mt hrst.1 hnotIdle) (mt hinc.1 hnotAdv) hstep

end Sys2Proof.Machine
end

section
/-! SUPPORT. The Transfer Controller's moves, said once: at each position what the host's action makes of the state, and that the
machine's step is that move (spec/48_host_controller.md R224 to R233). -/

namespace Sys2Proof.Machine

/-- The host's action at its position takes s to this state. -/
inductive HostMove (s : State) : State → Prop where
  /-- SEQRST (R224.1). -/
  | seqrst (hp : s.host.hpc = .idleSeqrst) : HostMove s ((s.goto .idleOpen).setSeq 0#7)
  /-- open() fails: abort (R224.2). -/
  | openFails (hp : s.host.hpc = .idleOpen) {e : Env} (he : s.env.takeOpen = (none, e)) :
    HostMove s ((s.setEnv e).setHost (s.host.finish .abort (.abortedTransport s.host.bytesSent)))
  /-- open() gives the file (R224.2). -/
  | opens (hp : s.host.hpc = .idleOpen) {bs : List Byte} {e : Env} (he : s.env.takeOpen = (some bs, e)) :
    HostMove s ((s.setEnv e).setHost { s.host with hpc := .idleInit, file := some bs })
  /-- The session takes the file's size (R224.3). -/
  | setsUp (hp : s.host.hpc = .idleInit) {bs : List Byte} (hf : s.host.file = some bs) :
    HostMove s (s.setHost { s.host with hpc := .idleGoto, remaining := bs.length, bytesSent := 0, retryCount := 0 })
  /-- Nothing remains (R224.4, R230.4). -/
  | toComplete (hp : s.host.hpc = .idleGoto ∨ s.host.hpc = .advGoto) (hr : s.host.remaining = 0) :
    HostMove s (s.goto .completeWrite)
  /-- Bytes remain (R224.4, R230.4). -/
  | toChunking (hp : s.host.hpc = .idleGoto ∨ s.host.hpc = .advGoto) (hr : 0 < s.host.remaining) :
    HostMove s (s.goto .chunkSize)
  /-- The next chunk is sized (R225.1). -/
  | sizes (hp : s.host.hpc = .chunkSize) :
    HostMove s (s.setHost { s.host with hpc := .chunkRead, chunkLen := min s.cfg.maxChunk.toNat s.host.remaining })
  /-- Its bytes are read from the file (R225.2). -/
  | readsFile (hp : s.host.hpc = .chunkRead) {bs : List Byte} (hf : s.host.file = some bs)
    (hlen : s.host.chunkLen ≤ bs.length) :
    HostMove s (s.setHost { s.host with
      hpc := .chunkClear, file := some (bs.drop s.host.chunkLen), fileBytes := bs.take s.host.chunkLen })
  /-- TXCLR (R225.3). -/
  | txclr (hp : s.host.hpc = .chunkClear) : HostMove s ((s.goto .chunkFill).setMem { s.mem with chunk := [] })
  /-- TXPUSH of the next byte read, below the capacity (R225.3). -/
  | txpush (hp : s.host.hpc = .chunkFill) {b : Byte} {rest : List Byte} (hb : s.host.fileBytes = b :: rest)
    (hlen : s.mem.chunk.length < capacity s.cfg .chunk) :
    HostMove s ((s.setHost { s.host with fileBytes := rest }).setMem { s.mem with chunk := s.mem.chunk ++ [b] })
  /-- BUILD, when none is left (R225.4). -/
  | build (hp : s.host.hpc = .chunkFill) (hb : s.host.fileBytes = []) :
    HostMove s (((s.goto .chunkRetryZero).setMem
      { s.mem with pkt := dataPacket s.seqByte s.cfg.typeData (escaped s.mem.chunk) }).setSum
        (dataPacketSum s.seqByte s.cfg.typeData (escaped s.mem.chunk)))
  /-- retry_count is 0 for the new packet (R225.5). -/
  | startsAttempts (hp : s.host.hpc = .chunkRetryZero) :
    HostMove s (s.setHost { s.host with hpc := .chunkGoto, retryCount := 0 })
  /-- On to Send (R225.6). -/
  | toSend (hp : s.host.hpc = .chunkGoto) : HostMove s (s.goto .sendWrite)
  /-- PKT is written (R226). -/
  | sends (hp : s.host.hpc = .sendWrite) {n : Nat} {e : Env} (he : s.env.takeWrite s.mem.pkt = (.success n, e)) :
    HostMove s ((s.setEnv e).goto .recvDelay)
  /-- The write of PKT fails: abort (R226). -/
  | sendFails (hp : s.host.hpc = .sendWrite) {e : Env} (he : s.env.takeWrite s.mem.pkt = (.error, e)) :
    HostMove s ((s.setEnv e).setHost (s.host.finish .abort (.abortedTransport s.host.bytesSent)))
  /-- The delay (R227.1). -/
  | delays (hp : s.host.hpc = .recvDelay) : HostMove s (s.goto .recvRead)
  /-- At most 6 bytes are read from the transport (R227.2). -/
  | receives (hp : s.host.hpc = .recvRead) {bs : List Byte} {e : Env} (he : s.env.takeRead = (bs, e)) :
    HostMove s ((s.setEnv e).setHost { s.host with hpc := .recvClear, recvBytes := bs })
  /-- RXCLR (R227.3). -/
  | rxclr (hp : s.host.hpc = .recvClear) : HostMove s ((s.goto .recvFill).setMem { s.mem with rx := [] })
  /-- RXPUSH of the next byte received, below the capacity (R227.3). -/
  | rxpush (hp : s.host.hpc = .recvFill) {b : Byte} {rest : List Byte} (hb : s.host.recvBytes = b :: rest)
    (hlen : s.mem.rx.length < capacity s.cfg .rx) :
    HostMove s ((s.setHost { s.host with recvBytes := rest }).setMem { s.mem with rx := s.mem.rx ++ [b] })
  /-- ACKCHK, when none is left (R227.3). -/
  | ackchk (hp : s.host.hpc = .recvFill) (hb : s.host.recvBytes = []) :
    HostMove s (((s.goto .recvDispatch).setAckres (ackCode (decodeAck s.cfg s.mem.rx s.seqByte))).noteSum (ackSum s.mem.rx))
  /-- The result is ACKNOWLEDGED (R228). -/
  | advances (hp : s.host.hpc = .recvDispatch) (hack : s.ackres = ackCode .acknowledged) :
    HostMove s (s.setHost { s.host with hpc := .advAccount, ackSeen := s.ackres })
  /-- The result is retryable (R228). -/
  | retries (hp : s.host.hpc = .recvDispatch) (hr : retryable s.ackres = true) :
    HostMove s (s.setHost { s.host with hpc := .retryCount, ackSeen := s.ackres })
  /-- The acknowledged chunk is accounted for (R230.1). -/
  | accounts (hp : s.host.hpc = .advAccount) :
    HostMove s (s.setHost { s.host with
      hpc := .advSeqinc, remaining := s.host.remaining - s.host.chunkLen, bytesSent := s.host.bytesSent + s.host.chunkLen })
  /-- SEQINC (R230.2). -/
  | seqinc (hp : s.host.hpc = .advSeqinc) : HostMove s ((s.goto .advRetryZero).setSeq (s.seq + 1#7))
  /-- retry_count is 0 again (R230.3). -/
  | endsAttempts (hp : s.host.hpc = .advRetryZero) : HostMove s (s.setHost { s.host with hpc := .advGoto, retryCount := 0 })
  /-- The failed attempt is counted (R231.1). -/
  | countsFailure (hp : s.host.hpc = .retryCount) :
    HostMove s (s.setHost { s.host with hpc := .retryLog, retryCount := s.host.retryCount + 1 })
  /-- An UNEXPECTED_TYPE is logged (R231.2). -/
  | logsFailure (hp : s.host.hpc = .retryLog) :
    HostMove s (s.setHost { s.host with
      hpc := .retryDecide,
      anomalies := if s.host.ackSeen = ackCode .unexpectedType then s.host.anomalies + 1 else s.host.anomalies })
  /-- Below the cap the same PKT is sent again (R231.4). -/
  | resends (hp : s.host.hpc = .retryDecide) (hlt : s.host.retryCount < MAX_RETRY) : HostMove s (s.goto .sendWrite)
  /-- At the cap: abort (R231.3). -/
  | givesUp (hp : s.host.hpc = .retryDecide) (hle : MAX_RETRY ≤ s.host.retryCount) :
    HostMove s (s.setHost (s.host.finish .abort (.abortedRetry s.seq s.host.bytesSent)))
  /-- ETX is written (R232). -/
  | completes (hp : s.host.hpc = .completeWrite) {n : Nat} {e : Env} (he : s.env.takeWrite [ETX] = (.success n, e)) :
    HostMove s ((s.setEnv e).setHost (s.host.finish .done .fullySent))
  /-- The write of ETX fails: abort (R232). -/
  | completeFails (hp : s.host.hpc = .completeWrite) {e : Env} (he : s.env.takeWrite [ETX] = (.error, e)) :
    HostMove s ((s.setEnv e).setHost (s.host.finish .abort (.abortedTransport s.host.bytesSent)))
  /-- Nothing moves in a terminal state (R233). -/
  | rests (hp : s.host.hpc = .done ∨ s.host.hpc = .abort) : HostMove s s

/-! ### The moves are the controller's steps -/

/-- A command the host issues is performed in the state with its session moved on. -/
theorem issue_encode_eq {i : Instr} {s t : State} (h : exec i s = .next t) : issue (encode i) s = .next t :=
  (issue_encode i s).trans h

theorem HostMove.ctlStep_eq {s t : State} (h : HostMove s t) : ctlStep s = .next t := by
  unfold ctlStep
  cases h with
  | seqrst hp | txclr hp | rxclr hp => rw [hp]; exact issue_encode_eq rfl
  | seqinc hp => rw [hp]; exact issue_seqinc _
  | openFails hp he | opens hp he => simp [hp, ctlOpen, he]
  | setsUp hp hf => simp [hp, ctlInit, hf]
  | toComplete hp hr => rcases hp with hp | hp <;> simp [hp, ctlNextChunk, hr]
  | toChunking hp hr => rcases hp with hp | hp <;> simp [hp, ctlNextChunk, hr.ne']
  | readsFile hp hf hlen => simp [hp, ctlChunkRead, hf, Nat.not_lt.2 hlen]
  | txpush hp hb hlen =>
    simp only [hp, ctlChunkFill, hb]
    exact issue_encode_eq (exec_txpush_of_lt _ hlen)
  | build hp hb => simp only [hp, ctlChunkFill, hb]; exact issue_encode_eq rfl
  | sends hp he | sendFails hp he => simp [hp, ctlSend, he]
  | rxpush hp hb hlen =>
    simp only [hp, ctlRecvFill, hb]
    exact issue_encode_eq (exec_rxpush_of_lt _ hlen)
  | ackchk hp hb => simp only [hp, ctlRecvFill, hb]; exact issue_encode_eq rfl
  | advances hp hack => rw [hp]; exact ctlDispatch_of_acknowledged hack
  | retries hp hr => rw [hp]; exact ctlDispatch_of_retryable hr
  | resends hp hlt => rw [hp]; exact ctlRetryDecide_of_lt hlt
  | givesUp hp hle => rw [hp]; exact ctlRetryDecide_of_le hle
  | completes hp he | completeFails hp he => simp [hp, ctlComplete, he]
  | receives hp he => simp [hp, ctlRecvRead, he]
  | sizes hp | accounts hp | logsFailure hp => rw [hp]; rfl
  | startsAttempts hp | toSend hp | delays hp | endsAttempts hp | countsFailure hp => rw [hp]
  | rests hp => rcases hp with hp | hp <;> rw [hp]

/-- With no port action waiting the machine's step is the host's move. -/
theorem HostMove.step_eq {s t : State} (h : HostMove s t) (hprog : s.program = []) : step s = .next t :=
  (step_controller s hprog).trans h.ctlStep_eq

/-! ### What no move touches -/

theorem HostMove.status_eq {s t : State} (h : HostMove s t) : t.status = s.status := by
  cases h with
  | ackchk => exact noteSum_status _ _
  | _ => rfl

theorem HostMove.cfg_eq {s t : State} (h : HostMove s t) : t.cfg = s.cfg := by
  cases h with
  | ackchk => exact noteSum_cfg _ _
  | _ => rfl

theorem HostMove.program_eq {s t : State} (h : HostMove s t) : t.program = s.program := by
  cases h with
  | ackchk => exact noteSum_program _ _
  | _ => rfl

end Sys2Proof.Machine
end

section
/-! PROOFS. A conforming transfer: at every position a move is possible, and it leads to a conforming state with the same STATUS
(O49) (spec/48_host_controller.md R239; spec/60_exceptions.md R263). -/

namespace Sys2Proof.Machine

/-! ### The parts of a conforming transfer -/

theorem State.Conforming.program_eq {s : State} (h : s.Conforming) : s.program = [] := by
  obtain ⟨-, hprog, -⟩ := h
  exact hprog

theorem State.Conforming.session {s : State} (h : s.Conforming) : sessionAt s s.host.hpc := by
  obtain ⟨-, -, hsession⟩ := h
  exact hsession

/-! ### Progress -/

/-- A chunk not yet filled is below CHUNK's capacity (R225.1). -/
theorem chunk_length_lt_of_fileBytes {s : State} {b : Byte} {rest : List Byte} (hb : s.host.fileBytes = b :: rest)
    (h : chunkTaken s ∧ s.mem.chunk.length + s.host.fileBytes.length = s.host.chunkLen) :
    s.mem.chunk.length < capacity s.cfg .chunk := by
  obtain ⟨⟨-, hmax, -, -⟩, hsum⟩ := h
  rw [hb, List.length_cons] at hsum
  simp only [capacity]
  omega

/-- A frame of at most 6 bytes not yet stored leaves room in RX (R8). -/
theorem rx_length_lt_of_recvBytes {s : State} {b : Byte} {rest : List Byte} (hb : s.host.recvBytes = b :: rest)
    (h : s.mem.rx.length + s.host.recvBytes.length ≤ ACK_FRAME_LEN) : s.mem.rx.length < capacity s.cfg .rx := by
  rw [hb, List.length_cons] at h
  simp only [capacity, ACK_FRAME_LEN] at *
  omega

/-- A write is answered by a success or an error, and each has its move (R223). -/
theorem exists_move_of_write {s : State} {bs : List Byte}
    (hs : ∀ n e, s.env.takeWrite bs = (.success n, e) → ∃ t, HostMove s t)
    (hf : ∀ e, s.env.takeWrite bs = (.error, e) → ∃ t, HostMove s t) : ∃ t, HostMove s t := by
  rcases hw : s.env.takeWrite bs with ⟨_ | n, e⟩
  · exact hs _ _ hw
  · exact hf _ hw

/-- The host is never stuck in a conforming transfer. -/
theorem State.Conforming.exists_move {s : State} (h : s.Conforming) : ∃ t, HostMove s t := by
  have hsession := h.session
  cases hp : s.host.hpc <;> rw [hp] at hsession
  case idleSeqrst => exact ⟨_, .seqrst hp⟩
  case idleOpen =>
    rcases he : s.env.takeOpen with ⟨_ | bs, e⟩
    · exact ⟨_, .openFails hp he⟩
    · exact ⟨_, .opens hp he⟩
  case idleInit =>
    obtain ⟨bs, hf⟩ := hsession
    exact ⟨_, .setsUp hp hf⟩
  case idleGoto =>
    rcases Nat.eq_zero_or_pos s.host.remaining with hr | hr
    · exact ⟨_, .toComplete (.inl hp) hr⟩
    · exact ⟨_, .toChunking (.inl hp) hr⟩
  case chunkSize => exact ⟨_, .sizes hp⟩
  case chunkRead =>
    obtain ⟨⟨bs, hf, hlen⟩, -, -, hle⟩ := hsession
    exact ⟨_, .readsFile hp hf (hlen ▸ hle)⟩
  case chunkClear => exact ⟨_, .txclr hp⟩
  case chunkFill =>
    cases hb : s.host.fileBytes with
    | nil => exact ⟨_, .build hp hb⟩
    | cons b rest => exact ⟨_, .txpush hp hb (chunk_length_lt_of_fileBytes hb hsession)⟩
  case chunkRetryZero => exact ⟨_, .startsAttempts hp⟩
  case chunkGoto => exact ⟨_, .toSend hp⟩
  case sendWrite => exact exists_move_of_write (fun _ _ he => ⟨_, .sends hp he⟩) fun _ he => ⟨_, .sendFails hp he⟩
  case recvDelay => exact ⟨_, .delays hp⟩
  case recvRead => exact ⟨_, .receives hp rfl⟩
  case recvClear => exact ⟨_, .rxclr hp⟩
  case recvFill =>
    cases hb : s.host.recvBytes with
    | nil => exact ⟨_, .ackchk hp hb⟩
    | cons b rest =>
      obtain ⟨-, hroom⟩ := hsession
      exact ⟨_, .rxpush hp hb (rx_length_lt_of_recvBytes hb hroom)⟩
  case recvDispatch =>
    obtain ⟨-, hack | hr⟩ := hsession
    · exact ⟨_, .advances hp hack⟩
    · exact ⟨_, .retries hp hr⟩
  case advAccount => exact ⟨_, .accounts hp⟩
  case advSeqinc => exact ⟨_, .seqinc hp⟩
  case advRetryZero => exact ⟨_, .endsAttempts hp⟩
  case advGoto =>
    rcases Nat.eq_zero_or_pos s.host.remaining with hr | hr
    · exact ⟨_, .toComplete (.inr hp) hr⟩
    · exact ⟨_, .toChunking (.inr hp) hr⟩
  case retryCount => exact ⟨_, .countsFailure hp⟩
  case retryLog => exact ⟨_, .logsFailure hp⟩
  case retryDecide =>
    rcases Nat.lt_or_ge s.host.retryCount MAX_RETRY with hlt | hle
    · exact ⟨_, .resends hp hlt⟩
    · exact ⟨_, .givesUp hp hle⟩
  case completeWrite => exact exists_move_of_write (fun _ _ he => ⟨_, .completes hp he⟩) fun _ he => ⟨_, .completeFails hp he⟩
  case done => exact ⟨_, .rests (.inl hp)⟩
  case abort => exact ⟨_, .rests (.inr hp)⟩

/-! ### Preservation -/

/-- A transport read brings at most the 6 bytes asked for (R223). -/
theorem takeRead_length_le {e e' : Env} {bs : List Byte} (h : e.takeRead = (bs, e')) : bs.length ≤ ACK_FRAME_LEN := by
  unfold Env.takeRead at h
  split at h <;> cases h <;> exact List.length_take_le _ _

/-- Every result of ACKCHK has a state to go to (R228). -/
theorem ackCode_dispatches (r : AckResult) : ackCode r = ackCode .acknowledged ∨ retryable (ackCode r) = true := by
  cases r <;> decide

/-- A push moves one byte from those still to come to the buffer. -/
theorem length_push_add (buf rest : List Byte) (b : Byte) :
    (buf ++ [b]).length + rest.length = buf.length + (b :: rest).length := by
  simp only [List.length_append, List.length_cons, List.length_nil]
  omega

/-- What the next position asks holds after the move. -/
theorem HostMove.sessionAt_next {s t : State} (h : HostMove s t) (hwf : s.cfg.wf = true) (hs : sessionAt s s.host.hpc) :
    sessionAt t t.host.hpc := by
  cases h with
  | rests => exact hs
  | seqrst => trivial
  | openFails | sendFails | givesUp | completeFails => exact ⟨_, rfl, by simp, by simp⟩
  | opens => exact ⟨_, rfl⟩
  | setsUp hp hf => exact ⟨_, hf, rfl⟩
  | toComplete hp hr => exact hr
  | toChunking hp hr => rcases hp with hp | hp <;> rw [hp] at hs <;> exact ⟨hs, hr⟩
  | sizes hp =>
    rw [hp] at hs
    obtain ⟨hfile, hr⟩ := hs
    have hmax := (Config.wf_bounds hwf).1
    exact ⟨hfile, lt_min hmax hr, min_le_left _ _, min_le_right _ _⟩
  | readsFile hp hf hlen =>
    rw [hp] at hs
    obtain ⟨⟨_, hf', hrem⟩, hpos, hmax, hle⟩ := hs
    cases hf.symm.trans hf'
    exact ⟨⟨hpos, hmax, hle, _, rfl, by simp [hrem]⟩, List.length_take_of_le hlen⟩
  | txclr hp =>
    rw [hp] at hs
    obtain ⟨htaken, hbytes⟩ := hs
    exact ⟨htaken, (Nat.zero_add _).trans hbytes⟩
  | txpush hp hb =>
    rw [hp] at hs
    obtain ⟨htaken, hsum⟩ := hs
    show sessionAt _ s.host.hpc
    rw [hp]
    exact ⟨htaken, (length_push_add _ _ _).trans (hb ▸ hsum)⟩
  | build hp hb =>
    rw [hp] at hs
    obtain ⟨htaken, hsum⟩ := hs
    exact ⟨htaken, by simpa [hb] using hsum, rfl⟩
  | startsAttempts hp =>
    rw [hp] at hs
    obtain ⟨htaken, hpkt⟩ := hs
    exact ⟨htaken, hpkt, Nat.zero_lt_succ 3⟩
  | toSend hp | sends hp | delays hp => rw [hp] at hs; exact hs
  | receives hp he => rw [hp] at hs; exact ⟨hs, takeRead_length_le he⟩
  | rxclr hp =>
    rw [hp] at hs
    obtain ⟨hatt, hbytes⟩ := hs
    exact ⟨hatt, (Nat.zero_add _).trans_le hbytes⟩
  | rxpush hp hb =>
    rw [hp] at hs
    obtain ⟨hatt, hsum⟩ := hs
    show sessionAt _ s.host.hpc
    rw [hp]
    exact ⟨hatt, (length_push_add _ _ _).trans_le (hb ▸ hsum)⟩
  | ackchk hp =>
    rw [hp] at hs
    obtain ⟨hatt, -⟩ := hs
    cases ackSum s.mem.rx <;> exact ⟨hatt, ackCode_dispatches _⟩
  | advances hp | retries hp =>
    rw [hp] at hs
    obtain ⟨hatt, -⟩ := hs
    exact hatt
  | accounts hp =>
    rw [hp] at hs
    obtain ⟨⟨-, -, -, hfile⟩, -, -⟩ := hs
    exact hfile
  | seqinc hp | endsAttempts hp => rw [hp] at hs; exact hs
  | countsFailure hp =>
    rw [hp] at hs
    obtain ⟨htaken, hpkt, hlt⟩ := hs
    exact ⟨htaken, hpkt, hlt⟩
  | logsFailure hp => rw [hp] at hs; exact hs
  | resends hp hlt =>
    rw [hp] at hs
    obtain ⟨htaken, hpkt, -⟩ := hs
    exact ⟨htaken, hpkt, hlt⟩
  | completes hp => rw [hp] at hs; exact ⟨rfl, hs⟩

theorem HostMove.conforming {s t : State} (h : HostMove s t) (hs : s.Conforming) : t.Conforming := by
  obtain ⟨hwf, hprog, hsession⟩ := hs
  exact ⟨h.cfg_eq ▸ hwf, h.program_eq.trans hprog, h.sessionAt_next hwf hsession⟩

/-- Settles O49: a move is possible, the step is that move, and it keeps what a conforming transfer asks. -/
theorem conformingHostNeverFaults : Obligations.ConformingHostNeverFaults := by
  intro s hs
  obtain ⟨t, ht⟩ := hs.exists_move
  exact ⟨t, ht.step_eq hs.program_eq, ht.conforming hs, ht.status_eq⟩

end Sys2Proof.Machine
end

section
/-! PROOFS. A conforming transfer ends (O50): every move but that of a terminal state lowers a rank made of the chunk in hand, its
attempts, the position and the bytes still to push (spec/48_host_controller.md R235, R240). -/

namespace Sys2Proof.Machine

/-- 1 until remaining_bytes is set to the file's size (R224). -/
def beforeSetUp : Hpc → Nat
  | .idleSeqrst | .idleOpen | .idleInit => 1
  | _ => 0

/-- The attempts left for the packet in flight: more than any packet has before the first one, and none at the end (R225.5,
R231). -/
def attemptsLeft (h : Controller) : Nat :=
  match h.hpc with
  | .chunkGoto | .sendWrite | .recvDelay | .recvRead | .recvClear | .recvFill | .recvDispatch | .advAccount | .retryCount
  | .retryLog | .retryDecide => MAX_RETRY - h.retryCount
  | .done | .abort => 0
  | _ => MAX_RETRY + 1

/-- The positions against the order in which they are taken, within one attempt of one chunk. -/
def positionRank : Hpc → Nat
  | .idleSeqrst => 24
  | .idleOpen => 23
  | .idleInit => 22
  | .advSeqinc => 21
  | .advRetryZero => 20
  | .advGoto | .idleGoto => 19
  | .chunkSize => 18
  | .chunkRead => 17
  | .chunkClear => 16
  | .chunkFill => 15
  | .chunkRetryZero => 14
  | .chunkGoto => 13
  | .retryLog => 12
  | .retryDecide => 11
  | .sendWrite => 10
  | .recvDelay => 9
  | .recvRead => 8
  | .recvClear => 7
  | .recvFill => 6
  | .recvDispatch => 5
  | .advAccount | .retryCount => 4
  | .completeWrite => 1
  | .done | .abort => 0

/-- The bytes read from the file or the transport and not yet pushed. -/
def bytesToPush (h : Controller) : Nat := h.fileBytes.length + h.recvBytes.length

/-- How far the transfer is from its end. -/
def transferRank (h : Controller) : ℕ ×ₗ ℕ ×ₗ ℕ ×ₗ ℕ ×ₗ ℕ :=
  toLex (beforeSetUp h.hpc, toLex (h.remaining, toLex (attemptsLeft h, toLex (positionRank h.hpc, bytesToPush h))))

/-- Ranks compare at the first component that differs. -/
theorem transferRank_lt_iff (h k : Controller) : transferRank h < transferRank k ↔
    beforeSetUp h.hpc < beforeSetUp k.hpc ∨ beforeSetUp h.hpc = beforeSetUp k.hpc ∧
      (h.remaining < k.remaining ∨ h.remaining = k.remaining ∧
        (attemptsLeft h < attemptsLeft k ∨ attemptsLeft h = attemptsLeft k ∧
          (positionRank h.hpc < positionRank k.hpc ∨ positionRank h.hpc = positionRank k.hpc ∧
            bytesToPush h < bytesToPush k))) := by
  simp only [transferRank, Prod.Lex.toLex_lt_toLex]

/-- Every move of a conforming transfer but a terminal state's comes nearer to the end. -/
theorem HostMove.transferRank_lt {s t : State} (h : HostMove s t) (hs : sessionAt s s.host.hpc) (hover : s.host.over = false) :
    transferRank t.host < transferRank s.host := by
  rw [transferRank_lt_iff]
  cases h with
  | rests hp => rcases hp with hp | hp <;> simp [Controller.over, hp] at hover
  | toComplete hp | toChunking hp => rcases hp with hp | hp <;> simp [hp, beforeSetUp, attemptsLeft, positionRank]
  | txpush hp hb | rxpush hp hb => simp [hp, hb, beforeSetUp, attemptsLeft, positionRank, bytesToPush]
  | accounts hp =>
    rw [hp] at hs
    obtain ⟨⟨hpos, -, hle, -⟩, -, -⟩ := hs
    simp [hp, beforeSetUp]
    omega
  | countsFailure hp =>
    rw [hp] at hs
    obtain ⟨-, -, hlt⟩ := hs
    simp [hp, beforeSetUp, attemptsLeft]
    omega
  | sendFails hp | givesUp hp =>
    simp [hp, beforeSetUp, attemptsLeft, positionRank, Controller.finish]
    omega
  | seqrst hp | openFails hp | opens hp | setsUp hp | sizes hp | readsFile hp | txclr hp | build hp | startsAttempts hp
  | toSend hp | sends hp | delays hp | receives hp | rxclr hp | ackchk hp | advances hp | retries hp | seqinc hp
  | endsAttempts hp | logsFailure hp | resends hp | completes hp | completeFails hp =>
    simp [hp, beforeSetUp, attemptsLeft, positionRank, Controller.finish]

/-- A conforming transfer in Done or Abort has its outcome (R234). -/
theorem State.Conforming.runOver {s : State} (h : s.Conforming) (hover : s.host.over = true) : s.runOver = true := by
  have hsession := h.session
  have hout : s.host.outcome.isSome = true := by
    simp only [Controller.over, Bool.or_eq_true, beq_iff_eq] at hover
    rcases hover with hp | hp <;> rw [hp] at hsession
    · obtain ⟨ho, -⟩ := hsession
      rw [ho]; rfl
    · obtain ⟨o, ho, -⟩ := hsession
      rw [ho]; rfl
  simp [State.runOver, h.program_eq, hover, hout]

/-- Settles O50, by induction on the rank: a transfer that is not over has a move, which lowers it. -/
theorem conformingTransferEnds : Obligations.ConformingTransferEnds := by
  intro s hs
  induction hrank : transferRank s.host using WellFoundedLT.induction generalizing s with
  | ind r ih =>
    subst hrank
    cases hover : s.host.over with
    | true => exact ⟨0, s, rfl, hs.runOver hover⟩
    | false =>
      obtain ⟨t, ht⟩ := hs.exists_move
      obtain ⟨n, u, hrun, hu⟩ := ih _ (ht.transferRank_lt hs.session hover) t (ht.conforming hs) rfl
      exact ⟨n + 1, u, (run_succ n (ht.step_eq hs.program_eq)).trans hrun, hu⟩

end Sys2Proof.Machine
end

section
/-! PROOFS. The count of the file's bytes (O52): Advance moves a chunk's bytes from remaining_bytes to bytes_sent, and the ETX is
written only with nothing remaining (spec/48_host_controller.md R230, R232, R234). -/

namespace Sys2Proof.Machine

/-- The step of a conforming transfer is a move of the host. -/
theorem State.Conforming.move_of_step {s t : State} (h : s.Conforming) (hstep : step s = .next t) : HostMove s t := by
  obtain ⟨u, hu⟩ := h.exists_move
  cases (hu.step_eq h.program_eq).symm.trans hstep
  exact hu

/-- Every move but the set-up keeps the sum of bytes_sent and remaining_bytes. -/
theorem HostMove.bytes_sum_eq {s t : State} (h : HostMove s t) (hs : sessionAt s s.host.hpc) (hp : s.host.hpc ≠ .idleInit) :
    t.host.bytesSent + t.host.remaining = s.host.bytesSent + s.host.remaining := by
  cases h with
  | setsUp hinit => exact absurd hinit hp
  | accounts hacc =>
    rw [hacc] at hs
    obtain ⟨⟨-, -, hle, -⟩, -, -⟩ := hs
    simp only [State.setHost_host]
    omega
  | ackchk => rw [noteSum_host]; rfl
  | _ => rfl

/-- FULLY_SENT is set by Complete alone, with nothing remaining. -/
theorem HostMove.fullySent {s t : State} (h : HostMove s t) (hs : sessionAt s s.host.hpc)
    (hout : t.host.outcome = some .fullySent) : s.host.outcome = some .fullySent ∨ t.host.remaining = 0 := by
  cases h with
  | completes hp => rw [hp] at hs; exact .inr hs
  | openFails | sendFails | givesUp | completeFails => simp [Controller.finish] at hout
  | ackchk => rw [noteSum_host] at hout; exact .inl hout
  | _ => exact .inl hout

/-- Settles O52, by the move the step is. -/
theorem everyByteIsAccountedFor : Obligations.EveryByteIsAccountedFor := by
  intro s t hs hstep hp
  have hmove := hs.move_of_step hstep
  exact ⟨hmove.bytes_sum_eq hs.session hp, hmove.fullySent hs.session⟩

end Sys2Proof.Machine
end

section
/-! PROOFS. Single moves put together: the terminal states (O58), a write's answer (O56) and a transfer of no byte (O55)
(spec/48_host_controller.md R224, R226, R232, R233). -/

namespace Sys2Proof.Machine

/-- A placed answer of a write is taken, and the bytes are recorded (logs 8 and 16). -/
theorem takeWrite_of_placed {e : Env} {a : WriteResult} {ws : List WriteResult} (h : e.writes = a :: ws) (bs : List Byte) :
    e.takeWrite bs = (a, { e with writes := ws, wire := e.wire ++ [bs] }) := by
  simp [Env.takeWrite, h]

/-- A placed answer of a read is taken, cut to the 6 bytes asked for. -/
theorem takeRead_of_placed {e : Env} {r : List Byte} {rs : List (List Byte)} (h : e.reads = r :: rs) :
    e.takeRead = (r.take ACK_FRAME_LEN, { e with reads := rs }) := by
  simp [Env.takeRead, h]

/-- A placed answer of open() is taken. -/
theorem takeOpen_of_placed {e : Env} {a : Option (List Byte)} {os : List (Option (List Byte))} (h : e.opens = a :: os) :
    e.takeOpen = (a, { e with opens := os }) := by
  simp [Env.takeOpen, h]

/-- A run goes on from the state the host's move leads to. -/
theorem run_move {s t u : State} {n : Nat} (h : HostMove s t) (hprog : s.program = [])
    (hrun : Sys2Proof.core.run n t = .next u) : Sys2Proof.core.run (n + 1) s = .next u :=
  (run_succ n (h.step_eq hprog)).trans hrun

/-- What a run from the next state ends in, so does a run of one move more. -/
theorem exists_run_of_move {s t : State} {n : Nat} {P : State → Prop} (h : HostMove s t) (hprog : s.program = [])
    (hrun : t.program = [] → ∃ u, Sys2Proof.core.run n t = .next u ∧ P u) :
    ∃ u, Sys2Proof.core.run (n + 1) s = .next u ∧ P u := by
  obtain ⟨u, hu, hP⟩ := hrun (h.program_eq.trans hprog)
  exact ⟨u, run_move h hprog hu, hP⟩

/-- Settles O58, by the one move of a terminal state, at each step. -/
theorem terminalHostTakesNoStep : Obligations.TerminalHostTakesNoStep := by
  intro s n hprog hp
  induction n with
  | zero => rfl
  | succ n ih => exact run_move (.rests hp) hprog ih

/-- Settles O56, by the position and the write's answer: each of the four cases is one move. -/
theorem writeErrorAbortsTheTransfer : Obligations.WriteErrorAbortsTheTransfer := by
  intro s a ws hprog hp hw
  rcases hp with hp | hp <;> cases a
  case inl.success => exact ⟨_, (HostMove.sends hp (takeWrite_of_placed hw _)).step_eq hprog, by simp, by simp [hp], rfl⟩
  case inl.error =>
    exact ⟨_, (HostMove.sendFails hp (takeWrite_of_placed hw _)).step_eq hprog, fun _ => ⟨rfl, rfl⟩, by simp, rfl⟩
  case inr.success =>
    exact ⟨_, (HostMove.completes hp (takeWrite_of_placed hw _)).step_eq hprog, by simp, by simp [hp, Controller.finish], rfl⟩
  case inr.error =>
    exact ⟨_, (HostMove.completeFails hp (takeWrite_of_placed hw _)).step_eq hprog, fun _ => ⟨rfl, rfl⟩, by simp, rfl⟩

/-- Settles O55, by the five moves from the start to Done. -/
theorem zeroByteFileSendsOnlyEtx : Obligations.ZeroByteFileSendsOnlyEtx := by
  intro s os k ws hprog hp hopen hw
  refine exists_run_of_move (.seqrst hp) hprog fun hprog => ?_
  refine exists_run_of_move (.opens rfl (takeOpen_of_placed hopen)) hprog fun hprog => ?_
  refine exists_run_of_move (.setsUp rfl rfl) hprog fun hprog => ?_
  refine exists_run_of_move (.toComplete (.inl rfl) rfl) hprog fun hprog => ?_
  refine exists_run_of_move (.completes rfl (takeWrite_of_placed (by exact hw) _)) hprog fun _ => ?_
  exact ⟨_, rfl, rfl, rfl, rfl, rfl⟩

end Sys2Proof.Machine
end

section
/-! SUPPORT. Moves one after another, and the two loops of pushes: a chunk into CHUNK and a frame into RX
(spec/48_host_controller.md R225.3, R227.3). -/

namespace Sys2Proof.Machine

/-- Some number of the host's moves leads from s to t. -/
abbrev Reaches : State → State → Prop := Relation.ReflTransGen HostMove

/-- With no port action waiting, what moves reach is reached by as many steps. -/
theorem Reaches.exists_run {s t : State} (h : Reaches s t) (hprog : s.program = []) :
    ∃ n, Sys2Proof.core.run n s = .next t := by
  induction h using Relation.ReflTransGen.head_induction_on with
  | refl => exact ⟨0, rfl⟩
  | head hmove _ ih =>
    obtain ⟨n, hn⟩ := ih (hmove.program_eq.trans hprog)
    exact ⟨n + 1, run_move hmove hprog hn⟩

/-- The bytes read from the file go to CHUNK, in order (R225.3). -/
theorem reaches_chunkFilled {s : State} {bs : List Byte} (hp : s.host.hpc = .chunkFill)
    (hb : s.host.fileBytes = bs) (hlen : s.mem.chunk.length + bs.length ≤ capacity s.cfg .chunk) :
    Reaches s ((s.setHost { s.host with fileBytes := [] }).setMem { s.mem with chunk := s.mem.chunk ++ bs }) := by
  induction bs generalizing s with
  | nil => rw [List.append_nil, ← hb]; exact .refl
  | cons b rest ih =>
    refine .head (.txpush hp hb ?_) ?_
    · rw [List.length_cons] at hlen; omega
    · rw [List.append_cons _ b rest]
      refine ih ?_ ?_ ?_
      · exact hp
      · rfl
      · exact (length_push_add _ _ _).trans_le hlen

/-- The bytes received go to RX, in order (R227.3). -/
theorem reaches_rxFilled {s : State} {bs : List Byte} (hp : s.host.hpc = .recvFill)
    (hb : s.host.recvBytes = bs) (hlen : s.mem.rx.length + bs.length ≤ capacity s.cfg .rx) :
    Reaches s ((s.setHost { s.host with recvBytes := [] }).setMem { s.mem with rx := s.mem.rx ++ bs }) := by
  induction bs generalizing s with
  | nil => rw [List.append_nil, ← hb]; exact .refl
  | cons b rest ih =>
    refine .head (.rxpush hp hb ?_) ?_
    · rw [List.length_cons] at hlen; omega
    · rw [List.append_cons _ b rest]
      refine ih ?_ ?_ ?_
      · exact hp
      · rfl
      · exact (length_push_add _ _ _).trans_le hlen

end Sys2Proof.Machine
end

section
/-! SUPPORT. One attempt, from Send to the dispatch of its result (spec/48_host_controller.md R226 to R228), when its write succeeds. -/

namespace Sys2Proof.Machine

/-- The state at the dispatch after an attempt whose read brought r: PKT is on the wire, r is in RX and ACKRES is its result. The
answers after it are rs and ws. -/
def State.attempted (s : State) (r : List Byte) (rs : List (List Byte)) (ws : List WriteResult) : State :=
  { s with
    ackres := ackCode (decodeAck s.cfg (r.take ACK_FRAME_LEN) s.seqByte)
    sum := (s.noteSum (ackSum (r.take ACK_FRAME_LEN))).sum
    mem := { s.mem with rx := r.take ACK_FRAME_LEN }
    host := { s.host with hpc := .recvDispatch, recvBytes := [] }
    env := { s.env with reads := rs, writes := ws, wire := s.env.wire ++ [s.mem.pkt] } }

/-- A frame of at most 6 bytes fits an empty RX (R8). -/
theorem take_length_le_rx (c : Config) (r : List Byte) : (r.take ACK_FRAME_LEN).length ≤ capacity c .rx := by
  have := List.length_take_le ACK_FRAME_LEN r
  simp only [capacity, ACK_FRAME_LEN] at *
  omega

theorem reaches_attempted {s : State} {n : Nat} {ws : List WriteResult} {r : List Byte} {rs : List (List Byte)}
    (hp : s.host.hpc = .sendWrite) (hw : s.env.writes = .success n :: ws) (hr : s.env.reads = r :: rs) :
    Reaches s (s.attempted r rs ws) := by
  refine .head (.sends hp (takeWrite_of_placed hw _)) ?_
  refine .head (.delays rfl) ?_
  refine .head (.receives rfl (takeRead_of_placed hr)) ?_
  refine .head (.rxclr rfl) ?_
  refine .trans (reaches_rxFilled rfl rfl ?_) ?_
  · exact (Nat.zero_add _).trans_le (take_length_le_rx _ r)
  · refine .head (.ackchk rfl rfl) ?_
    simp only [noteSum_eq, State.attempted, State.setAckres, State.goto, State.setHost, State.setMem, State.setEnv,
      List.nil_append]
    exact .refl

end Sys2Proof.Machine
end

section
/-! PROOFS. A packet whose every answer is retryable (O53): each attempt counts once, and the one that reaches the cap aborts
(spec/48_host_controller.md R231, R235). -/

namespace Sys2Proof.Machine

/-- The state in which the host decides on a failed attempt, its answer r counted and logged (R231). -/
def State.failedAttempt (s : State) (r : List Byte) (rs : List (List Byte)) (ws : List WriteResult) : State :=
  (s.attempted r rs ws).setHost ((s.attempted r rs ws).host.countFailure (s.attempted r rs ws).ackres)

theorem reaches_failedAttempt {s : State} {n : Nat} {ws : List WriteResult} {r : List Byte} {rs : List (List Byte)}
    (hp : s.host.hpc = .sendWrite) (hw : s.env.writes = .success n :: ws) (hr : s.env.reads = r :: rs)
    (hretry : retryable (ackCode (decodeAck s.cfg (r.take ACK_FRAME_LEN) s.seqByte)) = true) :
    Reaches s (s.failedAttempt r rs ws) :=
  (reaches_attempted hp hw hr).trans
    (.head (.retries rfl hretry) (.head (.countsFailure rfl) (.head (.logsFailure rfl) .refl)))

/-- t is s after n more sends of the packet in flight, the last of them at the cap (R235). -/
structure GaveUp (s : State) (n : Nat) (t : State) : Prop where
  hpc : t.host.hpc = .abort
  retryCount : t.host.retryCount = MAX_RETRY
  seq : t.seq = s.seq
  pkt : t.mem.pkt = s.mem.pkt
  wire : t.env.wire = s.env.wire ++ List.replicate n s.mem.pkt
  outcome : t.host.outcome = some (.abortedRetry s.seq s.host.bytesSent)

/-- As many retryable answers as there are attempts left end the transfer. -/
theorem exists_reaches_gaveUp {answers : List (List Byte)} : ∀ {s : State} {counts : List Nat} {rs : List (List Byte)}
    {ws : List WriteResult}, s.host.hpc = .sendWrite → answers ≠ [] → s.host.retryCount + answers.length = MAX_RETRY →
    s.env.reads = answers ++ rs → counts.length = answers.length → s.env.writes = counts.map .success ++ ws →
    (∀ r ∈ answers, retryable (ackCode (decodeAck s.cfg (r.take ACK_FRAME_LEN) s.seqByte)) = true) →
    ∃ t, Reaches s t ∧ GaveUp s answers.length t := by
  induction answers with
  | nil => exact fun _ hne => absurd rfl hne
  | cons r answers ih =>
    intro s counts rs ws hp _ hcap hreads hcounts hwrites hretry
    obtain ⟨n, counts, rfl⟩ := List.exists_cons_of_length_eq_add_one hcounts
    have hfailed := reaches_failedAttempt hp hwrites hreads (hretry r List.mem_cons_self)
    rw [List.length_cons] at hcap
    cases answers with
    | nil => exact ⟨_, hfailed.tail (.givesUp rfl hcap.ge), rfl, hcap, rfl, rfl, rfl, rfl⟩
    | cons r' answers =>
      have hlt : s.host.retryCount + 1 < MAX_RETRY := by rw [List.length_cons] at hcap; omega
      obtain ⟨t, ht, hgave⟩ := ih (s := (s.failedAttempt r (r' :: answers ++ rs) (counts.map .success ++ ws)).goto .sendWrite)
        rfl (List.cons_ne_nil _ _) ((Nat.add_right_comm _ _ _).trans hcap) rfl (Nat.succ.inj hcounts) rfl
        fun q hq => hretry q (List.mem_cons_of_mem _ hq)
      exact ⟨t, hfailed.trans (.head (.resends rfl hlt) ht), hgave.hpc, hgave.retryCount, hgave.seq, hgave.pkt,
        hgave.wire.trans (List.append_assoc _ _ _), hgave.outcome⟩

/-- Settles O53, by the four attempts left at retry_count 0. -/
theorem retryCapEndsTheTransfer : Obligations.RetryCapEndsTheTransfer := by
  intro s r1 r2 r3 r4 rs n1 n2 n3 n4 ws hconf hp hcount hreads hwrites hretry
  obtain ⟨t, ht, hgave⟩ := exists_reaches_gaveUp (answers := [r1, r2, r3, r4]) (counts := [n1, n2, n3, n4]) hp (by simp)
    (by rw [hcount]; rfl) hreads rfl hwrites hretry
  obtain ⟨n, hn⟩ := ht.exists_run hconf.program_eq
  exact ⟨n, t, hn, hgave.hpc, hgave.retryCount, hgave.seq, hgave.pkt, hgave.wire, hgave.outcome⟩

end Sys2Proof.Machine
end

section
/-! PROOFS. A whole file with every packet acknowledged at the first attempt (O54): one packet from chunk boundary to chunk boundary,
then all of them and the ETX (spec/48_host_controller.md R225, R230, R236). -/

namespace Sys2Proof.Machine

/-! ### One packet -/

/-- The state at Send with these bytes framed as PKT and those after them unread (R225). -/
def State.framed (s : State) (bs rest : List Byte) : State :=
  { s with
    sum := BitVec.ofNat 16 (dataPacketSum s.seqByte s.cfg.typeData (escaped bs))
    mem := { s.mem with chunk := bs, pkt := dataPacket s.seqByte s.cfg.typeData (escaped bs) }
    host := { s.host with
      hpc := .sendWrite, chunkLen := min s.cfg.maxChunk.toNat s.host.remaining, file := some rest, fileBytes := [],
      retryCount := 0 } }

/-- The state after Advance has accounted for the chunk (R230). -/
def State.advanced (s : State) : State :=
  { s with
    seq := s.seq + 1#7
    host := { s.host with
      hpc := .advGoto, ackSeen := s.ackres, remaining := s.host.remaining - s.host.chunkLen,
      bytesSent := s.host.bytesSent + s.host.chunkLen, retryCount := 0 } }

theorem reaches_framed {s : State} {bytes : List Byte} (hp : s.host.hpc = .chunkSize) (hf : s.host.file = some bytes)
    (hrem : s.host.remaining = bytes.length) :
    Reaches s (s.framed (bytes.take s.cfg.maxChunk.toNat) (bytes.drop s.cfg.maxChunk.toNat)) := by
  have htake : bytes.take (min s.cfg.maxChunk.toNat s.host.remaining) = bytes.take s.cfg.maxChunk.toNat := by
    rw [hrem, List.take_eq_take_iff]; simp
  have hdrop : bytes.drop (min s.cfg.maxChunk.toNat s.host.remaining) = bytes.drop s.cfg.maxChunk.toNat := by
    rw [hrem, List.drop_eq_drop_iff]; simp
  refine .head (.sizes hp) ?_
  refine .head (.readsFile rfl hf (hrem ▸ min_le_right _ _)) ?_
  refine .head (.txclr rfl) ?_
  refine .trans (reaches_chunkFilled rfl rfl ?_) ?_
  · show 0 + (bytes.take (min s.cfg.maxChunk.toNat s.host.remaining)).length ≤ s.cfg.maxChunk.toNat
    rw [Nat.zero_add, htake]
    exact List.length_take_le _ _
  · refine .head (.build rfl rfl) ?_
    refine .head (.startsAttempts rfl) ?_
    refine .head (.toSend rfl) ?_
    simp only [State.framed, State.setSum, State.goto, State.setHost, State.setMem, State.seqByte, List.nil_append, htake, hdrop]
    exact .refl

theorem reaches_advanced {s : State} (hp : s.host.hpc = .recvDispatch) (hack : s.ackres = ackCode .acknowledged) :
    Reaches s s.advanced := by
  refine .head (.advances hp hack) ?_
  refine .head (.accounts rfl) ?_
  refine .head (.seqinc rfl) ?_
  exact .head (.endsAttempts rfl) .refl

/-- The host is between two chunks, with these bytes of the file unread and unaccounted for (R224.4, R230.4). -/
structure AtBoundary (s : State) (bytes : List Byte) : Prop where
  hpc : s.host.hpc = .idleGoto ∨ s.host.hpc = .advGoto
  file : s.host.file = some bytes
  remaining : s.host.remaining = bytes.length

/-- t is s after the chunk of its first k bytes is sent and acknowledged, at the answers rs and ws (R230, R236). -/
structure Delivered (s : State) (k : Nat) (bytes : List Byte) (rs : List (List Byte)) (ws : List WriteResult)
    (t : State) : Prop where
  boundary : AtBoundary t (bytes.drop k)
  cfg : t.cfg = s.cfg
  status : t.status = s.status
  seq : t.seq = s.seq + 1#7
  bytesSent : t.host.bytesSent = s.host.bytesSent + min k bytes.length
  reads : t.env.reads = rs
  writes : t.env.writes = ws
  wire : t.env.wire = s.env.wire ++ [dataPacket s.seqByte s.cfg.typeData (escaped (bytes.take k))]

/-- The acknowledgment of SEQ is taken for it (R162). -/
theorem ackCode_decodeAck_ackFrame (c : Config) (n : BitVec 7) :
    ackCode (decodeAck c ((ackFrame c n).take ACK_FRAME_LEN) (n.setWidth 8)) = ackCode .acknowledged := by
  show ackCode (decodeAck c (ackFrame c n) _) = _
  rw [decodeAck_ackFrame, if_pos rfl]

/-- A chunk with its acknowledgment placed is delivered. -/
theorem exists_reaches_delivered {s : State} {bytes : List Byte} {n : Nat} {rs : List (List Byte)} {ws : List WriteResult}
    (hs : AtBoundary s bytes) (hne : bytes ≠ []) (hr : s.env.reads = ackFrame s.cfg s.seq :: rs)
    (hw : s.env.writes = .success n :: ws) : ∃ t, Reaches s t ∧ Delivered s s.cfg.maxChunk.toNat bytes rs ws t := by
  have hpos : 0 < s.host.remaining := hs.remaining ▸ List.length_pos_iff.2 hne
  refine ⟨_, .head (.toChunking hs.hpc hpos) (.trans (reaches_framed (s := s.goto .chunkSize) rfl hs.file hs.remaining)
    (.trans (reaches_attempted (s := (s.goto .chunkSize).framed _ _) rfl hw hr)
      (reaches_advanced rfl (ackCode_decodeAck_ackFrame s.cfg s.seq)))), ?_⟩
  refine ⟨⟨.inr rfl, rfl, ?_⟩, rfl, rfl, rfl, ?_, rfl, rfl, rfl⟩
  · show s.host.remaining - min s.cfg.maxChunk.toNat s.host.remaining = _
    rw [hs.remaining, List.length_drop]
    omega
  · rw [← hs.remaining]; rfl

/-! ### All of them -/

/-- How many chunks of at most k bytes n bytes are. -/
def packetCount (k n : Nat) : Nat := (n + k - 1) / k

theorem packetCount_zero {k : Nat} (hk : 0 < k) : packetCount k 0 = 0 := Nat.div_eq_of_lt (by omega)

theorem packetCount_of_pos {k n : Nat} (hk : 0 < k) (hn : 0 < n) : packetCount k n = packetCount k (n - k) + 1 := by
  rcases Nat.le_total k n with hle | hle
  · rw [packetCount, packetCount, ← Nat.add_div_right _ hk]
    congr 1
    omega
  · rw [Nat.sub_eq_zero_of_le hle, packetCount_zero hk, packetCount]
    exact Nat.div_eq_of_lt_le (by omega) (by omega)

/-- t is s after these bytes are sent as their packets and then ETX (R232, R236). -/
structure SentAll (s : State) (fuel : Nat) (bytes : List Byte) (t : State) : Prop where
  hpc : t.host.hpc = .done
  outcome : t.host.outcome = some .fullySent
  bytesSent : t.host.bytesSent = s.host.bytesSent + bytes.length
  seq : t.seq = s.seq + BitVec.ofNat 7 (packetCount s.cfg.maxChunk.toNat bytes.length)
  status : t.status = s.status
  wire : t.env.wire = s.env.wire ++ filePackets s.cfg.maxChunk.toNat s.cfg.typeData fuel s.seq bytes ++ [[ETX]]

theorem filePackets_nil (k : Nat) (fType : Byte) (fuel : Nat) (n : BitVec 7) : filePackets k fType fuel n [] = [] := by
  cases fuel <;> rfl

theorem filePackets_of_ne_nil (k : Nat) (fType : Byte) (fuel : Nat) (n : BitVec 7) {bytes : List Byte} (h : bytes ≠ []) :
    filePackets k fType (fuel + 1) n bytes =
      dataPacket (n.setWidth 8) fType (escaped (bytes.take k)) :: filePackets k fType fuel (n + 1#7) (bytes.drop k) := by
  simp [filePackets, h]

/-- With nothing left the ETX ends the transfer (R232). -/
theorem exists_reaches_etx {s : State} {n : Nat} {ws : List WriteResult} (hk : 0 < s.cfg.maxChunk.toNat) (hs : AtBoundary s [])
    (hw : s.env.writes = .success n :: ws) (fuel : Nat) : ∃ t, Reaches s t ∧ SentAll s fuel [] t := by
  refine ⟨_, .head (.toComplete hs.hpc hs.remaining) (.head (.completes rfl (takeWrite_of_placed (by exact hw) _)) .refl), ?_⟩
  refine ⟨rfl, rfl, rfl, ?_, rfl, ?_⟩
  · rw [List.length_nil, packetCount_zero hk]; exact (BitVec.add_zero _).symm
  · rw [filePackets_nil, List.append_nil]; rfl

/-- From a chunk boundary, with an acknowledgment placed for each packet and a success for each write, all is sent. -/
theorem exists_reaches_sentAll {fuel : Nat} : ∀ {s : State} {bytes : List Byte} {counts : List Nat} {rs : List (List Byte)}
    {ws : List WriteResult}, 0 < s.cfg.maxChunk.toNat → bytes.length ≤ fuel → AtBoundary s bytes →
    s.env.reads = ackFrames s.cfg (packetCount s.cfg.maxChunk.toNat bytes.length) s.seq ++ rs →
    counts.length = packetCount s.cfg.maxChunk.toNat bytes.length + 1 → s.env.writes = counts.map .success ++ ws →
    ∃ t, Reaches s t ∧ SentAll s fuel bytes t := by
  induction fuel with
  | zero =>
    intro s bytes counts rs ws hk hfuel hs _ hcounts hwrites
    obtain ⟨n, counts, rfl⟩ := List.exists_cons_of_length_eq_add_one hcounts
    obtain rfl := List.length_eq_zero_iff.1 (Nat.le_zero.1 hfuel)
    exact exists_reaches_etx hk hs hwrites 0
  | succ fuel ih =>
    intro s bytes counts rs ws hk hfuel hs hreads hcounts hwrites
    obtain ⟨n, counts, rfl⟩ := List.exists_cons_of_length_eq_add_one hcounts
    by_cases hne : bytes = []
    · subst hne
      exact exists_reaches_etx hk hs hwrites (fuel + 1)
    · have hpos := List.length_pos_iff.2 hne
      have hcount := packetCount_of_pos hk hpos
      rw [hcount, ackFrames, List.cons_append] at hreads
      rw [hcount] at hcounts
      obtain ⟨u, hu, hdel⟩ := exists_reaches_delivered hs hne hreads hwrites
      obtain ⟨t, ht, hsent⟩ := ih (s := u) (bytes := bytes.drop s.cfg.maxChunk.toNat) (counts := counts) (rs := rs) (ws := ws)
        (hdel.cfg ▸ hk) (by rw [List.length_drop]; omega) hdel.boundary
        (by rw [hdel.reads, hdel.cfg, hdel.seq, List.length_drop])
        (by rw [hdel.cfg, List.length_drop]; exact Nat.succ.inj hcounts) hdel.writes
      refine ⟨t, hu.trans ht, hsent.hpc, hsent.outcome, ?_, ?_, hsent.status.trans hdel.status, ?_⟩
      · rw [hsent.bytesSent, hdel.bytesSent, List.length_drop]; omega
      · rw [hsent.seq, hdel.seq, hdel.cfg, List.length_drop, hcount, BitVec.ofNat_add, BitVec.add_assoc, BitVec.add_comm 1#7]
      · rw [hsent.wire, hdel.wire, hdel.seq, hdel.cfg, filePackets_of_ne_nil _ _ _ _ hne]
        simp [State.seqByte]

/-- The state with the file open and the session set up (R224). -/
def State.opened (s : State) (file : List Byte) (os : List (Option (List Byte))) : State :=
  { s with
    seq := 0#7
    host := { s.host with hpc := .idleGoto, file := some file, remaining := file.length, bytesSent := 0, retryCount := 0 }
    env := { s.env with opens := os } }

theorem reaches_opened {s : State} {file : List Byte} {os : List (Option (List Byte))} (hp : s.host.hpc = .idleSeqrst)
    (hopen : s.env.opens = some file :: os) : Reaches s (s.opened file os) := by
  refine .head (.seqrst hp) ?_
  refine .head (.opens rfl (takeOpen_of_placed (by exact hopen))) ?_
  exact .head (.setsUp rfl rfl) .refl

/-- Settles O54, by the moves that open the file, and all packets from the first chunk boundary on. -/
theorem wholeFileIsSentInOrder : Obligations.WholeFileIsSentInOrder := by
  intro s file os rs counts ws k n hwf hprog hp hopen hreads hcounts hwrites
  obtain ⟨hk, -, -⟩ := Config.wf_bounds hwf
  obtain ⟨t, ht, hsent⟩ := exists_reaches_sentAll (s := s.opened file os) (fuel := file.length) hk le_rfl ⟨.inl rfl, rfl, rfl⟩
    hreads hcounts hwrites
  obtain ⟨m, hm⟩ := Reaches.exists_run ((reaches_opened hp hopen).trans ht) hprog
  exact ⟨m, t, hm, hsent.hpc, hsent.outcome, hsent.bytesSent.trans (Nat.zero_add _), hsent.seq.trans (BitVec.zero_add _),
    hsent.status, hsent.wire⟩

end Sys2Proof.Machine
end

section
/-! PROOFS. Command faults and the RESET input: a fault records its cause alone (O39), no command reads STATUS or anything outside the
BLOCK (O41) (spec/60_exceptions.md R260 to R271), and RESET gives the reset state (O42) (spec/70_reset_and_hazards.md R290). -/

namespace Sys2Proof.Machine

/-! ### Precise faults (R260, R262, R265) -/

/-- A cause as STATUS records it, in arithmetic (R262). -/
theorem statusWord_eq (c : FaultCause) : statusWord c = BitVec.ofNat 8 (2 * (causeCode c).toNat + 1) := by
  cases c <;> decide

/-- Only the two pushes can change STATUS (Table R22). -/
theorem exec_status_of_ne_push {i : Instr} {s t : State} (htx : ∀ b, i ≠ .txpush b) (hrx : ∀ b, i ≠ .rxpush b)
    (h : exec i s = .next t) : t.status = s.status := by
  cases exec_effect h with
  | overflow hi =>
    rcases hi with ⟨b, hb⟩ | ⟨b, hb⟩
    · exact absurd hb (htx b)
    · exact absurd hb (hrx b)
  | sequence | scalar | chunk | receive | build => rfl
  | ackchk => exact noteSum_status _ _
  | datchk => simp

/-- What a word does with the fault it raises, if any: the fault is recorded, or STATUS stays. -/
def FaultAnswered (s : State) (o : Host.Outcome State Fault Refusal) : Option FaultCause → Prop
  | some c => o = .next (s.recordFault c)
  | none => ∃ t, o = .next t ∧ t.status = s.status

/-- A push onto a full buffer is a fault, and below the capacity it is none (R141, R161). -/
theorem faultAnswered_push {s t : State} {n cap : Nat} {c : FaultCause} (h : t.status = s.status) :
    FaultAnswered s (.next (if n = cap then s.recordFault c else t)) (if n = cap then some c else none) := by
  split
  · exact rfl
  · exact ⟨t, rfl, h⟩

theorem issue_faultAnswered (w : Command) (s : State) : FaultAnswered s (issue w s) (commandFault w s) := by
  cases hd : decodeCmd w with
  | fault c => rw [issue_of_fault hd, commandFault, hd]; exact rfl
  | instr i =>
    rw [issue_of_decode hd, commandFault, hd]
    cases i with
    | txpush b => rw [exec_txpush]; exact faultAnswered_push rfl
    | rxpush b => rw [exec_rxpush]; exact faultAnswered_push rfl
    | _ =>
      obtain ⟨t, ht⟩ := exec_completes _ s
      exact ⟨t, ht, exec_status_of_ne_push (by simp) (by simp) ht⟩

/-- Settles O39, by what a word does with the fault it raises. -/
theorem faultsArePrecise : Obligations.FaultsArePrecise := by
  intro w s
  have h := issue_faultAnswered w s
  refine ⟨fun c hc => ?_, fun hnone => ?_⟩
  · rw [hc] at h
    rw [h.trans (congrArg _ (recordFault_eq s c)), statusWord_eq]
    rfl
  · rw [hnone] at h; exact h

/-! ### Commands see only the BLOCK (R262, R271) -/

/-- s with this STATUS, host, collaborators, port actions and read answer. -/
def State.withOutside (s : State) (v : BitVec 8) (h : Controller) (e : Env) (p : List PortAction) (r : ReadData) : State :=
  { s with status := v, host := h, env := e, program := p, readData := r }

/-- This outcome is t with another STATUS, and with the outside given. -/
def AnswersOutside (t : State) (h : Controller) (e : Env) (p : List PortAction) (r : ReadData)
    (o : Host.Outcome State Fault Refusal) : Prop :=
  ∃ v, o = .next (t.withOutside v h e p r)

section
variable (s : State) (v : BitVec 8) (h : Controller) (e : Env) (p : List PortAction) (r : ReadData)

/-- A push sees its buffer and the capacity alone; at a full buffer the states differ in STATUS. -/
theorem push_withOutside {cond : Prop} [Decidable cond] (c : FaultCause) (m : Memory) :
    AnswersOutside (if cond then s.recordFault c else s.setMem m) h e p r
      (.next (if cond then (s.withOutside v h e p r).recordFault c else (s.withOutside v h e p r).setMem m)) := by
  split
  · simp only [recordFault_eq]; exact ⟨_, rfl⟩
  · exact ⟨v, rfl⟩

theorem exec_withOutside {i : Instr} {t : State} (ht : exec i s = .next t) :
    AnswersOutside t h e p r (exec i (s.withOutside v h e p r)) := by
  cases i with
  | escenc b =>
    rw [exec_escenc] at *
    cases ht
    refine ⟨v, ?_⟩
    split
    · rfl
    · split <;> rfl
  | txpush b => rw [exec_txpush] at *; cases ht; exact push_withOutside s v h e p r _ _
  | rxpush b => rw [exec_rxpush] at *; cases ht; exact push_withOutside s v h e p r _ _
  | ackchk =>
    cases ht
    refine ⟨v, (exec_ackchk _).trans ?_⟩
    rw [noteSum_eq, noteSum_eq]
    rfl
  | datchk =>
    cases ht
    refine ⟨v, (exec_datchk _).trans ?_⟩
    rw [storePayload_eq, noteSum_eq, storePayload_eq, noteSum_eq]
    rfl
  | _ => cases ht; exact ⟨v, rfl⟩

end

/-- Settles O41, by what a command does with the outside changed. -/
theorem commandsIgnoreStatusAndHost : Obligations.CommandsIgnoreStatusAndHost := by
  intro i s t v h e p r ht
  obtain ⟨v', hv⟩ := exec_withOutside s v h e p r ht
  exact ⟨_, hv, rfl⟩

/-! ### RESET (R290, R291) -/

/-- Settles O42, by the port action RESET is. -/
theorem resetInputRestoresTheResetState : Obligations.ResetInputRestoresTheResetState :=
  ⟨fun s rest h => step_port s .reset rest h, rfl⟩

end Sys2Proof.Machine
end
